-- ==== Sys2Proof/Word.lean ====
section
/-! DEFINITION. The words HEXREC exchanges with its host: bytes, the 36-bit command word (R75), the 12-bit
response word (R80), the four operand formats (R77 to R79), the response codes (R80) and the two encodings
of an instruction (30_encoding, opening paragraph). -/

namespace Sys2Proof

/-- A byte, or a character holding an ASCII code (R11). -/
abbrev Byte := BitVec 8

/-- The command word `CW` (R75). -/
abbrev CommandWord := BitVec 36

/-- The response word `RSP` (R80). -/
abbrev ResponseWord := BitVec 12

/-- The formats of `ARG` (R77, R78, R79). -/
inductive ArgFormat where
  | n | b | h | c
  deriving DecidableEq, Repr

/-- The response codes by name (R80). Their numbers are `RspCode.bits`. -/
inductive RspCode where
  | ok | illOp | rsvBits | badPhase | rsvType | busy
  deriving DecidableEq, Repr

/-- How an instruction of the opcode table is written in bits: a command as its 36-bit word (R75), a record
row by its record type byte, record byte 3 (R61, R70), to which the table's match and mask apply. -/
inductive Encoding where
  | command (cw : CommandWord)
  | recordType (type : Byte)
  deriving DecidableEq, Repr

end Sys2Proof
end

