-- ==== Sys2Proof/Config.lean ====
section
/-! DEFINITION. What an implementation fixes: the shape of the parameters of R7 (their values stand in
Machine/Ops.lean), and the one free value, the order of a waiting command and an enabled step (R195). -/

namespace Sys2Proof

/-- The two agents that initiate changes of the block's state (R19, D29). -/
inductive Agent where
  | host | sequencer
  deriving DecidableEq, Repr, Inhabited

/-- The parameters of R7 that a model may vary: `CHUNK` and `SEG_SUB`. -/
structure Params where
  /-- `CHUNK`, the greatest number of data bytes of a Data record. -/
  chunk : Nat
  /-- `SEG_SUB`, the amount taken off the running address at a segment overflow. -/
  segSub : BitVec 17
  deriving DecidableEq, Repr

/-- The legal range of the parameters (R7, R193): `CHUNK` 1 to 255, `SEG_SUB` 65535 or 65536. -/
def Params.legal (p : Params) : Bool :=
  decide (1 ≤ p.chunk) && decide (p.chunk ≤ 255) && (p.segSub == 65535 || p.segSub == 65536)

/-- FREE VALUE (log entry 3): which agent moves at the n-th action when a command waits and a step is
enabled. R195: the order is not fixed and a model must allow both. -/
opaque Config.freeTurn : Nat → Agent

end Sys2Proof
end

