-- ==== Sys2Proof/Machine/State.lean ====
section
/-! DEFINITION. The state of HEXREC as plain data: the registers of 10_state (R20 to R31), the streams of
20_memory (R42, R45), the host's side of the command port (R75), and the model's own turn and tick (R195);
the reasons a step can stop; the state after reset (R34). -/

namespace Sys2Proof.Machine

/-- `FMT.PHASE` (R22). -/
inductive Phase where
  | idle | data
  deriving DecidableEq, Repr

/-- `SEQ.STATE` (R26); the value 7 is never held, so it has no constructor. -/
inductive SeqState where
  | idle | start | streaming | segOverflow | done | halted | aborted
  deriving DecidableEq, Repr

/-- `ERR` (R28); the value 3 is never held, so it has no constructor. -/
inductive ErrorKind where
  | none | inputUnavailable | readFailure
  deriving DecidableEq, Repr

/-- `CFG` (R30), by its fields. -/
structure Cfg where
  initAddr : BitVec 16
  startEn : BitVec 1
  eol : BitVec 1
  deriving DecidableEq, Repr

/-- `IN.end` (R42): what the stream does when asked for more than its data still has. -/
inductive StreamEnd where
  | eos | fail
  deriving DecidableEq, Repr

/-- The input stream `IN` (R42) with its cursor `IN.pos`. -/
structure Input where
  avail : Bool
  data : List Byte
  ending : StreamEnd
  pos : Nat
  deriving DecidableEq, Repr

/-- No stream was handed over (R161): what `SEQ.RUN` binds when the environment offers none. -/
def Input.unavailable : Input := { avail := false, data := [], ending := .eos, pos := 0 }

/-- Everything a model of HEXREC carries from one action to the next. -/
structure State where
  /-- `ACC` (R21). -/
  acc : BitVec 8
  /-- `PHASE` (R22). -/
  phase : Phase
  /-- `REM` (R23). -/
  rem : BitVec 8
  /-- `STATE` (R26). -/
  seqState : SeqState
  /-- `CUR_ADDR` (R24). -/
  curAddr : BitVec 17
  /-- `SEG_CNT` (R25). -/
  segCnt : BitVec 16
  /-- `ERR` (R28). -/
  err : ErrorKind
  /-- `CFG` (R30). -/
  cfg : Cfg
  /-- `OUT` (R45), oldest character first. -/
  out : List Byte
  /-- The responses answered so far (R75, R80), oldest first. -/
  rsps : List ResponseWord
  /-- `IN` of the current or last run (R42). -/
  inp : Input
  /-- The streams the environment hands over at the next accepted `SEQ.RUN`s (R42, R161), next first. -/
  streams : List Input
  /-- The command words the host presents (R75), next first. -/
  cmds : List CommandWord
  /-- The model's own: who moves when a command waits and a step is enabled (R195). -/
  turn : Agent
  /-- The model's own: the argument of the free value `Config.freeTurn`. -/
  ticks : Nat
  deriving DecidableEq, Repr

/-- HEXREC never stops with a fault: the two error kinds of R160 are states it goes on from (R170, R171), and
93_implementation_defined treats nothing as a fault. No constructor, so nothing raises one. -/
inductive Fault where
  deriving DecidableEq, Repr

/-- Why `exec` has no next state. -/
inductive Refusal where
  /-- Raised by a refused arm of `exec` for an instruction with no meaning yet; no arm does. Safe. -/
  | notModelled (mnemonic : String)
  /-- Raised by the step `SEG_OVERFLOW` when `SEG_CNT` is 0xFFFF: the spec gives no meaning and orders a model
  to refuse (R139, U1). Safe. -/
  | segmentCounterExhausted
  /-- Raised by `exec` of a record row when `STATE` does not enable that step (R136, R141); `step` never runs
  a record row in such a state. Safe. -/
  | stepNotEnabled
  deriving DecidableEq, Repr

/-- What executing an instruction answers. -/
abbrev Result := Host.Outcome State Fault Refusal

/-- The state after power-on reset: the registers by the table of R34; the environment's fields by log
entry 7. -/
def State.reset : State where
  acc := 0
  phase := .idle
  rem := 0
  seqState := .idle
  curAddr := 0
  segCnt := 0
  err := .none
  cfg := { initAddr := 0, startEn := 1, eol := 0 }
  out := []
  rsps := []
  inp := Input.unavailable
  streams := []
  cmds := []
  turn := .host
  ticks := 0

end Sys2Proof.Machine
end

