-- ==== Sys2Proof/Machine/Flags.lean ====
section
/-! DEFINITION. The block has no condition codes (R29). What software sees of its state are numbers: the codes
of `STATE`, `PHASE`, `ERR` (R26, R22, R28), the view `STATUS` (R31), `CFG` as one word (R30), the response
codes and the response word (R80), and whether a run is in progress (R26). -/

namespace Sys2Proof.Machine

/-- The number of `STATE` (R26). -/
def SeqState.code : SeqState → BitVec 3
  | .idle => 0
  | .start => 1
  | .streaming => 2
  | .segOverflow => 3
  | .done => 4
  | .halted => 5
  | .aborted => 6

/-- The number of `PHASE` (R22). -/
def Phase.code : Phase → BitVec 1
  | .idle => 0
  | .data => 1

/-- The number of `ERR` (R28). -/
def ErrorKind.code : ErrorKind → BitVec 2
  | .none => 0
  | .inputUnavailable => 1
  | .readFailure => 2

/-- `STATUS` (R31): `{0b00, ERR, PHASE, STATE}`. -/
def State.status (s : State) : BitVec 8 :=
  (0 : BitVec 2) ++ s.err.code ++ s.phase.code ++ s.seqState.code

/-- `CFG` as the 18-bit register (R30): `{EOL, START_EN, INIT_ADDR}`. -/
def Cfg.word (c : Cfg) : BitVec 18 := c.eol ++ c.startEn ++ c.initAddr

/-- A run is in progress, `SeqBusy` (R26). -/
def SeqState.busy : SeqState → Bool
  | .start | .streaming | .segOverflow | .done => true
  | .idle | .halted | .aborted => false

/-- `SeqBusy` of the machine (R26). -/
def State.seqBusy (s : State) : Bool := s.seqState.busy

/-- The number of a response code (R80). -/
def rspCodeBits : RspCode → BitVec 4
  | .ok => 0x0
  | .illOp => 0x1
  | .rsvBits => 0x2
  | .badPhase => 0x3
  | .rsvType => 0x4
  | .busy => 0x5

/-- The response word (R80): `RSP[11:8] = CODE`, `RSP[7:0] = DATA`. -/
def responseWord (code : RspCode) (data : Byte) : ResponseWord := rspCodeBits code ++ data

end Sys2Proof.Machine
end

