-- ==== Sys2Proof/Syntax.lean ====
section
/-! DEFINITION. The instructions: one constructor per row of spec/opcode_table.json. By R18 an instruction is
a command of the command port or a step of the sequencer; the ten command rows carry the operands of their
`ARG` format, the four record rows are the four steps of SEQ (R137 to R140), whose operands are the registers
and the input stream. -/

namespace Sys2Proof

inductive Instr where
  /-- `CSUM.CLR` (R98). -/
  | csumClr
  /-- `CSUM.ADD b` (R99). -/
  | csumAdd (b : Byte)
  /-- `CSUM.RD` (R100). -/
  | csumRd
  /-- `FMT.HDR count, addr, type` (R112). -/
  | fmtHdr (count : Byte) (addr : BitVec 16) (type : Byte)
  /-- `FMT.DAT b` (R113). -/
  | fmtDat (b : Byte)
  /-- `FMT.EOF` (R114). -/
  | fmtEof
  /-- `SEQ.CFG init_addr, start_en, eol` (R131). -/
  | seqCfg (initAddr : BitVec 16) (startEn : BitVec 1) (eol : BitVec 1)
  /-- `SEQ.RUN` (R135). -/
  | seqRun
  /-- `STAT.RD` (R132). -/
  | statRd
  /-- `RESET` (R133). -/
  | reset
  /-- Record row `Data`, type 0x00: the step `STREAMING` (R138). -/
  | data
  /-- Record row `EndOfFile`, type 0x01: the step `DONE` (R140). -/
  | endOfFile
  /-- Record row `ExtendedSegmentAddress`, type 0x02: the step `SEG_OVERFLOW` (R139). -/
  | extendedSegmentAddress
  /-- Record row `StartAddress`, type 0x04: the step `START` (R137). -/
  | startAddress
  deriving DecidableEq, Repr

end Sys2Proof
end

