-- ==== Sys2Proof/WellFormed.lean ====
section
/-! DEFINITION. Which terms of `Instr` the opcode table admits. The widths of all operands are in their types
(R74); the one check left is the record type of `FMT.HDR` (R73, R111 d). An ill-formed `FMT.HDR` still has a
meaning: it is refused `RSV_TYPE` (R112). -/

namespace Sys2Proof

/-- The four record types of R70. -/
def recordTypes : List Byte := [0x00, 0x01, 0x02, 0x04]

/-- The instruction is one the opcode table admits: the type of `FMT.HDR` is one of the four. -/
def Instr.wellFormed : Instr → Bool
  | .fmtHdr _ _ type => recordTypes.contains type
  | .csumClr | .csumAdd _ | .csumRd | .fmtDat _ | .fmtEof | .seqCfg _ _ _ | .seqRun | .statRd | .reset
  | .data | .endOfFile | .extendedSegmentAddress | .startAddress => true

end Sys2Proof
end

