-- ==== Sys2Proof/Machine/Operands.lean ====
section
/-! DEFINITION. The pure functions of the spec (R15) over bytes and characters: `Sum8`, `Checksum`, `Neg8`,
`HexDigit`, `Hex2`, `Eol`, `RecordBytes`, `Line`, `FormatRecord`, and `StreamRead` as a function of the
input. -/

namespace Sys2Proof.Machine

/-- `sum(s)` (R11): the unbounded sum of the bytes. -/
def byteSum (s : List Byte) : Nat := (s.map BitVec.toNat).sum

/-- `Sum8(s)` (R90). -/
def sum8 (s : List Byte) : Byte := BitVec.ofNat 8 (byteSum s % 256)

/-- `Checksum(s)` (R91), the document's second form. -/
def checksum (s : List Byte) : Byte := BitVec.ofNat 8 ((0xFF - byteSum s % 256 + 1) % 256)

/-- `Neg8(a)` (R93). -/
def neg8 (a : Byte) : Byte := 0 - a

/-- `:` (R64). -/
def colon : Byte := 0x3A

/-- `HexDigit(n)` (R65): digits and uppercase letters. -/
def hexDigit (n : BitVec 4) : Byte :=
  if n.toNat ≤ 9 then BitVec.ofNat 8 (0x30 + n.toNat) else BitVec.ofNat 8 (0x41 + (n.toNat - 10))

/-- `Hex2(b)` (R66): high nibble first. -/
def hex2 (b : Byte) : List Byte := [hexDigit (b.extractLsb' 4 4), hexDigit (b.extractLsb' 0 4)]

/-- The hexadecimal pairs of a sequence of bytes, in order (R62). -/
def hexPairs (s : List Byte) : List Byte := s.flatMap hex2

/-- `Eol(e)` (R68): LF, or CR LF. -/
def eol (e : BitVec 1) : List Byte := if e = 0 then [0x0A] else [0x0D, 0x0A]

/-- The first four record bytes (R61), which are the four bytes of `ARG` in format H (R78). -/
def headerBytes (count : Byte) (addr : BitVec 16) (type : Byte) : List Byte :=
  [count, addr.extractLsb' 8 8, addr.extractLsb' 0 8, type]

/-- `RecordBytes(count, addr, type, data)` (R61). -/
def recordBytes (count : Byte) (addr : BitVec 16) (type : Byte) (data : List Byte) : List Byte :=
  headerBytes count addr type ++ data

/-- `Line(count, addr, type, data)` (R62). -/
def line (count : Byte) (addr : BitVec 16) (type : Byte) (data : List Byte) : List Byte :=
  let rb := recordBytes count addr type data
  colon :: (hexPairs rb ++ hex2 (checksum rb))

/-- `FormatRecord(count, addr, type, data, e)` (R69). -/
def formatRecord (count : Byte) (addr : BitVec 16) (type : Byte) (data : List Byte) (e : BitVec 1) : List Byte :=
  line count addr type data ++ eol e

/-- The hard-coded End-Of-File text `:00000001FF` (R97, R114). -/
def eofText : List Byte := [0x3A, 0x30, 0x30, 0x30, 0x30, 0x30, 0x30, 0x30, 0x31, 0x46, 0x46]

/-- The big-endian bytes of a 16-bit value (R47). -/
def bigEndian (v : BitVec 16) : List Byte := [v.extractLsb' 8 8, v.extractLsb' 0 8]

/-- The record types `FMT.HDR` accepts (R112). -/
def typeAccepted (type : Byte) : Bool := recordTypes.contains type

/-- The status of an answer of `StreamRead` (R43). -/
inductive ReadStatus where
  | full | short | fail
  deriving DecidableEq, Repr

/-- The answer of `StreamRead` and the stream it leaves. -/
structure ReadAnswer where
  buf : List Byte
  status : ReadStatus
  rest : Input
  deriving DecidableEq, Repr

/-- `StreamRead(n)` (R43): a read-until-full. -/
def streamRead (n : Nat) (inp : Input) : ReadAnswer :=
  let k := min n (inp.data.length - inp.pos)
  if k = n then
    { buf := (inp.data.drop inp.pos).take n, status := .full, rest := { inp with pos := inp.pos + n } }
  else
    match inp.ending with
    | .eos => { buf := (inp.data.drop inp.pos).take k, status := .short, rest := { inp with pos := inp.pos + k } }
    | .fail => { buf := [], status := .fail, rest := { inp with pos := inp.pos + k } }

/-- A command word as nine hexadecimal digits, `OP` first (R83). -/
def writtenDigits (cw : CommandWord) : List Byte :=
  [32, 28, 24, 20, 16, 12, 8, 4, 0].map fun at_ => hexDigit (cw.extractLsb' at_ 4)

end Sys2Proof.Machine
end

