-- ==== Sys2Proof/Machine/Ops.lean ====
section
/-! DEFINITION. The named operations over the state: register writes, `EmitAll` and `respond` (R13, R14), the
admission tests of a command (R166, R168), trap entry (R170), `EmitRecord` (R118), the opening and closing of
a record (R112, R113), the bodies of the sequencer's steps (R137 to R140), and the parameters' values (R7). -/

namespace Sys2Proof.Machine

/-- The values this hardware takes (R7, `90_conflicts.md` C1). -/
def params : Params := { chunk := 32, segSub := 65535 }

/-- The greatest running address that does not overflow, `ADDR_MAX` (R7). -/
def addrMax : BitVec 17 := 65535

/-- `ACC <- v`. -/
def State.setAcc (s : State) (v : BitVec 8) : State := { s with acc := v }

/-- `PHASE <- p`. -/
def State.setPhase (s : State) (p : Phase) : State := { s with phase := p }

/-- `REM <- v`. -/
def State.setRem (s : State) (v : BitVec 8) : State := { s with rem := v }

/-- `STATE <- q`. -/
def State.setSeqState (s : State) (q : SeqState) : State := { s with seqState := q }

/-- `CUR_ADDR <- v`. -/
def State.setCurAddr (s : State) (v : BitVec 17) : State := { s with curAddr := v }

/-- `SEG_CNT <- v`. -/
def State.setSegCnt (s : State) (v : BitVec 16) : State := { s with segCnt := v }

/-- `ERR <- e`. -/
def State.setErr (s : State) (e : ErrorKind) : State := { s with err := e }

/-- `CFG <- c`. -/
def State.setCfg (s : State) (c : Cfg) : State := { s with cfg := c }

/-- The input stream as a read or a binding leaves it (R42, R43). -/
def State.setInp (s : State) (i : Input) : State := { s with inp := i }

/-- The environment's offers, as a binding leaves them. -/
def State.setStreams (s : State) (l : List Input) : State := { s with streams := l }

/-- `EmitAll(cs)` (R46): `OUT <- OUT ++ cs`; the sink always accepts. -/
def State.emitAll (s : State) (cs : List Byte) : State := { s with out := s.out ++ cs }

/-- `respond(code, data)` (R14, R80). -/
def State.respond (s : State) (code : RspCode) (data : Byte) : State :=
  { s with rsps := s.rsps ++ [responseWord code data] }

/-- `refuse <Code>` (R14, R165): the response carries the code and 0x00, and nothing else changes. -/
def State.refuse (s : State) (code : RspCode) : State := s.respond code 0x00

/-- The state tests of a command that needs phase `need`, in the order of R168: `BUSY`, then `BAD_PHASE`. -/
def State.admission (s : State) (need : Phase) : Option RspCode :=
  if s.seqBusy then some .busy
  else if s.phase = need then none
  else some .badPhase

/-- A command that needs phase `need`: refused as the tests say, else it leaves `accepted`. -/
def State.ifAdmitted (s : State) (need : Phase) (accepted : State) : Result :=
  match s.admission need with
  | some code => .next (s.refuse code)
  | none => .next accepted

/-- A step of the sequencer, taken in state `need` only (R136). -/
def State.ifEnabled (s : State) (need : SeqState) (taken : Result) : Result :=
  if s.seqState = need then taken else .refused .stepNotEnabled

/-- Trap entry (R170): `ERR <-` the code, `STATE <- ABORTED`, and that is all. There is no return (R171):
`ABORTED` is left by `SEQ.RUN` (`State.startRun`) or `RESET` (`State.resetRegisters`). -/
def State.raiseError (s : State) (e : ErrorKind) : State := (s.setErr e).setSeqState .aborted

/-- Every register takes its reset value (R133, R34); the environment's fields stay (R34, R181). -/
def State.resetRegisters (s : State) : State :=
  { s with
    acc := State.reset.acc
    phase := State.reset.phase
    rem := State.reset.rem
    seqState := State.reset.seqState
    curAddr := State.reset.curAddr
    segCnt := State.reset.segCnt
    err := State.reset.err
    cfg := State.reset.cfg }

/-- The checksum and the terminator that close a record (R112, R113). -/
def State.closeRecord (s : State) : State :=
  ((s.emitAll (hex2 (neg8 s.acc) ++ eol s.cfg.eol)).setRem 0).setPhase .idle

/-- An accepted `FMT.HDR` (R112). -/
def State.openRecord (s : State) (count : Byte) (addr : BitVec 16) (type : Byte) : State :=
  let hb := headerBytes count addr type
  let opened := (s.setAcc (sum8 hb)).emitAll (colon :: hexPairs hb)
  if count = 0 then opened.closeRecord
  else (opened.setRem count).setPhase .data

/-- An accepted `FMT.DAT` (R113). -/
def State.takeDataByte (s : State) (b : Byte) : State :=
  let taken := ((s.setAcc (s.acc + b)).setRem (s.rem - 1)).emitAll (hex2 b)
  if taken.rem = 0 then taken.closeRecord else taken

/-- The fixed End-Of-File record and its terminator (R114, R140); `ACC` is not touched. -/
def State.emitEof (s : State) : State := s.emitAll (eofText ++ eol s.cfg.eol)

/-- `EmitRecord(count, addr, type, data)` (R118). -/
def State.emitRecord (s : State) (count : Byte) (addr : BitVec 16) (type : Byte) (data : List Byte) : State :=
  (s.setAcc (sum8 (recordBytes count addr type data))).emitAll (formatRecord count addr type data s.cfg.eol)

/-- The stream the next accepted `SEQ.RUN` binds (R42): the next one offered, or none (R161); its cursor is 0. -/
def State.nextInput (s : State) : Input :=
  match s.streams with
  | [] => Input.unavailable
  | i :: _ => { i with pos := 0 }

/-- An accepted `SEQ.RUN` (R135). -/
def State.startRun (s : State) : State :=
  let bound := (s.setInp s.nextInput).setStreams s.streams.tail
  let loaded := (bound.setCurAddr (s.cfg.initAddr.setWidth 17)).setSegCnt 0
  if s.nextInput.avail then (loaded.setErr .none).setSeqState .start
  else loaded.raiseError .inputUnavailable

/-- The step `START` (R137). -/
def State.startStep (s : State) : State :=
  let emitted := if s.cfg.startEn = 1 then s.emitRecord 2 0x0000 0x04 [0x00, 0x00] else s
  emitted.setSeqState .streaming

/-- A Data record of the bytes read, at the running address (R138). -/
def State.emitData (s : State) (buf : List Byte) : State :=
  s.emitRecord (BitVec.ofNat 8 buf.length) (s.curAddr.extractLsb' 0 16) 0x00 buf

/-- The advance of the running address after a full chunk and the overflow test (R138). -/
def State.advance (s : State) (chunk : Nat) : State :=
  let moved := s.setCurAddr (s.curAddr + BitVec.ofNat 17 chunk)
  if moved.curAddr > addrMax then moved.setSeqState .segOverflow else moved.setSeqState .streaming

/-- The step `STREAMING` (R138). -/
def State.streamingStep (s : State) (p : Params) : State :=
  let answer := streamRead p.chunk s.inp
  let read := s.setInp answer.rest
  match answer.status with
  | .fail => read.raiseError .readFailure
  | .short => if answer.buf = [] then read.setSeqState .done else (read.emitData answer.buf).setSeqState .done
  | .full => (read.emitData answer.buf).advance p.chunk

/-- The step `SEG_OVERFLOW` (R139), for a `SEG_CNT` below 0xFFFF. -/
def State.segmentStep (s : State) (p : Params) : State :=
  let moved := (s.setCurAddr (s.curAddr - p.segSub)).setSegCnt (s.segCnt + 1)
  (moved.emitRecord 2 0x0000 0x02 (bigEndian moved.segCnt)).setSeqState .streaming

/-- The step `DONE` (R140). -/
def State.doneStep (s : State) : State := s.emitEof.setSeqState .halted

end Sys2Proof.Machine
end

