-- ==== Sys2Proof/Machine/Csum.lean ====
section
/-! DEFINITION. The commands of the checksum accumulator: `CSUM.CLR`, `CSUM.ADD`, `CSUM.RD` (40_checksum). -/

namespace Sys2Proof.Machine

/-- `CSUM.CLR` (R98). -/
def execCsumClr (s : State) : Result := s.ifAdmitted .idle ((s.setAcc 0).respond .ok 0x00)

/-- `CSUM.ADD b` (R99); the carry out of bit 7 is discarded. -/
def execCsumAdd (b : Byte) (s : State) : Result := s.ifAdmitted .idle ((s.setAcc (s.acc + b)).respond .ok 0x00)

/-- `CSUM.RD` (R100); reads and does not write. -/
def execCsumRd (s : State) : Result := s.ifAdmitted .idle (s.respond .ok (neg8 s.acc))

end Sys2Proof.Machine
end

