-- ==== Sys2Proof/Machine/Fmt.lean ====
section
/-! DEFINITION. The commands of the record formatter: `FMT.HDR`, `FMT.DAT`, `FMT.EOF` (41_formatter). -/

namespace Sys2Proof.Machine

/-- `FMT.HDR count, addr, type` (R112); a reserved type is refused `RSV_TYPE` after the state tests (R168). -/
def execFmtHdr (count : Byte) (addr : BitVec 16) (type : Byte) (s : State) : Result :=
  s.ifAdmitted .idle <|
    if typeAccepted type then (s.openRecord count addr type).respond .ok 0x00 else s.refuse .rsvType

/-- `FMT.DAT b` (R113). -/
def execFmtDat (b : Byte) (s : State) : Result := s.ifAdmitted .data ((s.takeDataByte b).respond .ok 0x00)

/-- `FMT.EOF` (R114). -/
def execFmtEof (s : State) : Result := s.ifAdmitted .idle (s.emitEof.respond .ok 0x00)

end Sys2Proof.Machine
end

