-- ==== Sys2Proof/Machine/Seq.lean ====
section
/-! DEFINITION. The system commands `SEQ.CFG`, `SEQ.RUN`, `STAT.RD`, `RESET` (42_sequencer, section 2) and the
four steps of the sequencer, which are the meanings of the record rows (section 3). -/

namespace Sys2Proof.Machine

/-- `SEQ.CFG init_addr, start_en, eol` (R131). -/
def execSeqCfg (initAddr : BitVec 16) (startEn eol : BitVec 1) (s : State) : Result :=
  s.ifAdmitted .idle ((s.setCfg { initAddr := initAddr, startEn := startEn, eol := eol }).respond .ok 0x00)

/-- `SEQ.RUN` (R135); the response is `OK` even when the input is unavailable. -/
def execSeqRun (s : State) : Result := s.ifAdmitted .idle (s.startRun.respond .ok 0x00)

/-- `STAT.RD` (R132); accepted in every state. -/
def execStatRd (s : State) : Result := .next (s.respond .ok s.status)

/-- `RESET` (R133); accepted in every state. -/
def execReset (s : State) : Result := .next (s.resetRegisters.respond .ok 0x00)

/-- Row `StartAddress`: the step `START` (R137). -/
def execStartAddress (s : State) : Result := s.ifEnabled .start (.next s.startStep)

/-- Row `Data`: the step `STREAMING` (R138). -/
def execData (s : State) : Result := s.ifEnabled .streaming (.next (s.streamingStep params))

/-- Row `ExtendedSegmentAddress`: the step `SEG_OVERFLOW` (R139); at `SEG_CNT` = 0xFFFF the spec gives no
meaning (U1). -/
def execExtendedSegmentAddress (s : State) : Result :=
  s.ifEnabled .segOverflow <|
    if s.segCnt = 0xFFFF then .refused .segmentCounterExhausted else .next (s.segmentStep params)

/-- Row `EndOfFile`: the step `DONE` (R140). -/
def execEndOfFile (s : State) : Result := s.ifEnabled .done (.next s.doneStep)

end Sys2Proof.Machine
end

