-- ==== Sys2Proof/Machine/Dispatch.lean ====
section
/-! DEFINITION. One arm per row of spec/opcode_table.json. -/

namespace Sys2Proof.Machine

def exec (i : Instr) (s : State) : Host.Outcome State Fault Refusal :=
  match i with
  | .csumClr => Sys2Proof.Machine.execCsumClr s
  | .csumAdd b => Sys2Proof.Machine.execCsumAdd b s
  | .csumRd => Sys2Proof.Machine.execCsumRd s
  | .fmtHdr count addr type => Sys2Proof.Machine.execFmtHdr count addr type s
  | .fmtDat b => Sys2Proof.Machine.execFmtDat b s
  | .fmtEof => Sys2Proof.Machine.execFmtEof s
  | .seqCfg initAddr startEn eol => Sys2Proof.Machine.execSeqCfg initAddr startEn eol s
  | .seqRun => Sys2Proof.Machine.execSeqRun s
  | .statRd => Sys2Proof.Machine.execStatRd s
  | .reset => Sys2Proof.Machine.execReset s
  | .data => Sys2Proof.Machine.execData s
  | .endOfFile => Sys2Proof.Machine.execEndOfFile s
  | .extendedSegmentAddress => Sys2Proof.Machine.execExtendedSegmentAddress s
  | .startAddress => Sys2Proof.Machine.execStartAddress s

end Sys2Proof.Machine
end

