-- ==== Sys2Proof/Decode.lean ====
section
/-! DEFINITION. Decoding (R82) and encoding (R83) of the command word, and of the record type byte (R70).
The decoder is total; it rejects by the response code of the refusal (R81), and a reserved record type by
`RSV_TYPE` (R73). -/

namespace Sys2Proof

/-- `CW[35:32]` (R75). -/
def opField (cw : CommandWord) : BitVec 4 := cw.extractLsb' 32 4

/-- `CW[31:0]` (R75). -/
def argField (cw : CommandWord) : BitVec 32 := cw.extractLsb' 0 32

/-- The reserved bits of `ARG` in each format (R77 to R79, R82). -/
def reservedMask : ArgFormat → BitVec 32
  | .n => 0xFFFFFFFF
  | .b => 0xFFFFFF00
  | .h => 0x00000000
  | .c => 0xFFFC0000

/-- The last test of R82: an `ARG` with a reserved bit set is refused `RSV_BITS`. -/
def checkReserved (fmt : ArgFormat) (arg : BitVec 32) (i : Instr) : Except RspCode Instr :=
  if arg &&& reservedMask fmt = 0 then .ok i else .error .rsvBits

/-- The byte operand of format B (R77). -/
def argByte (arg : BitVec 32) : Byte := arg.extractLsb' 0 8

/-- Decoding a command word (R82, operation codes of R76). -/
def decodeCommand (cw : CommandWord) : Except RspCode Instr :=
  let arg := argField cw
  match (opField cw).toNat with
  | 0x0 => checkReserved .n arg .csumClr
  | 0x1 => checkReserved .b arg (.csumAdd (argByte arg))
  | 0x2 => checkReserved .n arg .csumRd
  | 0x4 => checkReserved .h arg (.fmtHdr (arg.extractLsb' 24 8) (arg.extractLsb' 8 16) (arg.extractLsb' 0 8))
  | 0x5 => checkReserved .b arg (.fmtDat (argByte arg))
  | 0x6 => checkReserved .n arg .fmtEof
  | 0x8 => checkReserved .c arg (.seqCfg (arg.extractLsb' 0 16) (arg.extractLsb' 16 1) (arg.extractLsb' 17 1))
  | 0x9 => checkReserved .n arg .seqRun
  | 0xC => checkReserved .n arg .statRd
  | 0xF => checkReserved .n arg .reset
  | _ => .error .illOp

/-- The record row of a record type byte (R70); every other value is reserved (R73). -/
def decodeRecordType (type : Byte) : Except RspCode Instr :=
  match type.toNat with
  | 0x00 => .ok .data
  | 0x01 => .ok .endOfFile
  | 0x02 => .ok .extendedSegmentAddress
  | 0x04 => .ok .startAddress
  | _ => .error .rsvType

/-- Decoding, total on both encodings. -/
def decode : Encoding → Except RspCode Instr
  | .command cw => decodeCommand cw
  | .recordType type => decodeRecordType type

/-- `OP` above `ARG` (R75). -/
def commandWord (op : BitVec 4) (arg : BitVec 32) : CommandWord := op ++ arg

/-- Encoding (R83; the type bytes of R70 for the record rows). -/
def encode : Instr → Encoding
  | .csumClr => .command (commandWord 0x0 0)
  | .csumAdd b => .command (commandWord 0x1 (b.setWidth 32))
  | .csumRd => .command (commandWord 0x2 0)
  | .fmtHdr count addr type => .command (commandWord 0x4 (count ++ addr ++ type))
  | .fmtDat b => .command (commandWord 0x5 (b.setWidth 32))
  | .fmtEof => .command (commandWord 0x6 0)
  | .seqCfg initAddr startEn eol => .command (commandWord 0x8 ((0 : BitVec 14) ++ eol ++ startEn ++ initAddr))
  | .seqRun => .command (commandWord 0x9 0)
  | .statRd => .command (commandWord 0xC 0)
  | .reset => .command (commandWord 0xF 0)
  | .data => .recordType 0x00
  | .endOfFile => .recordType 0x01
  | .extendedSegmentAddress => .recordType 0x02
  | .startAddress => .recordType 0x04

/-- The bits of an opcode-table row as an encoding (log entry 12): a row of at most one byte is a record
type byte, a longer one a command word, whose bits above bit 35 must be 0. -/
def tableEncoding (nbits w : Nat) : Option Encoding :=
  if nbits ≤ 8 then
    if w < 2 ^ 8 then some (.recordType (BitVec.ofNat 8 w)) else none
  else
    if w < 2 ^ 36 then some (.command (BitVec.ofNat 36 w)) else none

/-- The instruction the decoder reads from a row's bits, numbered as spec/opcode_table.json numbers them. -/
def decodeTableWord (nbits w : Nat) : Option Instr :=
  match tableEncoding nbits w with
  | none => none
  | some e =>
    match decode e with
    | .ok i => some i
    | .error _ => none

end Sys2Proof
end

