-- ==== Sys2Proof/Machine/Fetch.lean ====
section
/-! DEFINITION. Which action comes next (R19, R136, R195): a command the host presents, the step `STATE`
enables, or nothing; and how a command or a record row is placed so that it comes next. -/

namespace Sys2Proof.Machine

/-- The record row whose step `STATE` enables (R136, R141). -/
def SeqState.enabledStep : SeqState → Option Instr
  | .start => some .startAddress
  | .streaming => some .data
  | .segOverflow => some .extendedSegmentAddress
  | .done => some .endOfFile
  | .idle | .halted | .aborted => none

/-- What comes next: nothing, an instruction, or a command word that decoding refuses (R82). -/
inductive Action where
  | wait
  | run (i : Instr)
  | reject (code : RspCode)
  deriving DecidableEq, Repr

/-- The action of a presented command word. -/
def commandAction (cw : CommandWord) : Action :=
  match decodeCommand cw with
  | .ok i => .run i
  | .error code => .reject code

/-- The free order is drawn anew after each action (R195, log entry 3). -/
def State.nextTurn (s : State) : State := { s with turn := Config.freeTurn s.ticks, ticks := s.ticks + 1 }

/-- The host's command is taken off its queue. -/
def State.dropCommand (s : State) : State := { s with cmds := s.cmds.tail }

/-- The next action and the state it starts from. With a command waiting and a step enabled, `turn` decides;
otherwise whichever there is comes next, and with neither the block waits (R141, R182). -/
def State.fetch (s : State) : Action × State :=
  match s.seqState.enabledStep, s.cmds with
  | none, [] => (.wait, s)
  | none, cw :: _ => (commandAction cw, s.dropCommand.nextTurn)
  | some i, [] => (.run i, s.nextTurn)
  | some i, cw :: _ =>
    match s.turn with
    | .host => (commandAction cw, s.dropCommand.nextTurn)
    | .sequencer => (.run i, s.nextTurn)

/-- The state `STATE` must be in for the step of a record type byte (R137 to R140). -/
def stateOfRecordType (type : Byte) : Option SeqState :=
  match type.toNat with
  | 0x00 => some .streaming
  | 0x01 => some .done
  | 0x02 => some .segOverflow
  | 0x04 => some .start
  | _ => none

/-- `s` with the instruction of this encoding next (log entry 2): a command is presented first and it is the
host's turn; a record row is the step `STATE` enables and it is the sequencer's turn. -/
def State.withNext (s : State) : Encoding → State
  | .command cw => { s with cmds := cw :: s.cmds, turn := .host }
  | .recordType type =>
    match stateOfRecordType type with
    | some q => { s with seqState := q, turn := .sequencer }
    | none => s

end Sys2Proof.Machine
end

