-- ==== Sys2Proof/Machine/Step.lean ====
section
/-! DEFINITION. One step of the machine: one command, one step of the sequencer, or nothing. -/

namespace Sys2Proof.Machine

/-- One atomic action (R51, R136). -/
def step (s : State) : Host.Outcome State Fault Refusal :=
  match s.fetch with
  | (.wait, s') => .next s'
  | (.run i, s') => exec i s'
  | (.reject code, s') => .next (s'.refuse code)

/-- `s` with the instruction of these bits stored where `step` fetches its next one. -/
def State.withFetchWord (s : State) (nbits w : Nat) : State :=
  match tableEncoding nbits w with
  | some e => s.withNext e
  | none => s

end Sys2Proof.Machine
end

