-- ==== Sys2Proof/Machine/Encode.lean ====
section
/-! DEFINITION. Sequences of commands (the pseudo-commands of R84), records as data (R60), and `Encode`, the
whole run as a function from configuration and input to output (R150). `Encode` is written over natural
numbers and does not use the machine's step, so that the two can be compared. -/

namespace Sys2Proof.Machine

/-- `FMT.REC count, addr, type, data` (R84). -/
def fmtRec (count : Byte) (addr : BitVec 16) (type : Byte) (data : List Byte) : List Instr :=
  .fmtHdr count addr type :: data.map .fmtDat

/-- `CSUM.OF bytes` (R84). -/
def csumOf (bytes : List Byte) : List Instr := .csumClr :: (bytes.map .csumAdd ++ [.csumRd])

/-- A record (R60) without its checksum, which is computed from the rest. -/
structure Record where
  count : Byte
  addr : BitVec 16
  type : Byte
  data : List Byte
  deriving DecidableEq, Repr

/-- What the block appends to `OUT` for a record (R69). -/
def recordText (e : BitVec 1) (r : Record) : List Byte := formatRecord r.count r.addr r.type r.data e

/-- The Start-Address record (R70, R137). -/
def startRecord : Record := { count := 2, addr := 0x0000, type := 0x04, data := [0x00, 0x00] }

/-- The Extended Segment Address record that carries `n` (R70, R139). -/
def segmentRecord (n : Nat) : Record :=
  { count := 2, addr := 0x0000, type := 0x02, data := bigEndian (BitVec.ofNat 16 n) }

/-- A Data record of the bytes `buf` at address `addr` (R70, R138). -/
def dataRecord (addr : Nat) (buf : List Byte) : Record :=
  { count := BitVec.ofNat 8 buf.length, addr := BitVec.ofNat 16 addr, type := 0x00, data := buf }

/-- The End-Of-File record; its computed text is the hard-coded one, and a model may use either (R71, R97). -/
def eofRecord : Record := { count := 0, addr := 0x0000, type := 0x01, data := [] }

/-- How a run ends (R150, R151); `unspecified` is the case U1, `outOfFuel` the bound of the definition's own
recursion, which `runRecords` never reaches. -/
inductive RunEnd where
  | halted | inputUnavailable | readFailure | unspecified | outOfFuel
  deriving DecidableEq, Repr

/-- Records put before those of the rest of a run. -/
def prepend (rs : List Record) (r : List Record × RunEnd) : List Record × RunEnd := (rs ++ r.1, r.2)

/-- The loop of R150 on the bytes not yet read, with the running address and the segment count as numbers. -/
def recordLoop (p : Params) (ending : StreamEnd) :
    (fuel : Nat) → (rest : List Byte) → (cur seg : Nat) → List Record × RunEnd
  | 0, _, _, _ => ([], .outOfFuel)
  | fuel + 1, rest, cur, seg =>
    if p.chunk ≤ rest.length then
      let full := dataRecord cur (rest.take p.chunk)
      if cur + p.chunk > 65535 then
        if seg = 0xFFFF then ([full], .unspecified)
        else
          prepend [full, segmentRecord (seg + 1)]
            (recordLoop p ending fuel (rest.drop p.chunk) (cur + p.chunk - p.segSub.toNat) (seg + 1))
      else prepend [full] (recordLoop p ending fuel (rest.drop p.chunk) (cur + p.chunk) seg)
    else
      match ending with
      | .fail => ([], .readFailure)
      | .eos => ((if rest = [] then [] else [dataRecord cur rest]) ++ [eofRecord], .halted)

/-- The records of a run and how it ends (R150); a run makes `floor(N / CHUNK) + 1` reads (R143), which bounds
the recursion. -/
def runRecords (p : Params) (cfg : Cfg) (inp : Input) : List Record × RunEnd :=
  if inp.avail then
    prepend (if cfg.startEn = 1 then [startRecord] else [])
      (recordLoop p inp.ending (inp.data.length / p.chunk + 1) inp.data cfg.initAddr.toNat 0)
  else ([], .inputUnavailable)

/-- `Encode(cfg, IN)` (R150): the characters a run appends to `OUT`, and how it ends. -/
def encodeRun (p : Params) (cfg : Cfg) (inp : Input) : List Byte × RunEnd :=
  let r := runRecords p cfg inp
  (r.1.flatMap (recordText cfg.eol), r.2)

end Sys2Proof.Machine
end

