-- ==== Sys2Proof/Safety.lean ====
section
/-! DEFINITION. The terms claims are stated in: the invariants of R36, the access table of R35, the transition
table of R136, the characters of R64, sequences of commands and of steps, and reading a line back (R116). -/

namespace Sys2Proof.Machine

/-- The invariants of R36, with the bounds of R24 in `SEG_OVERFLOW` and the stream's part (R42, R161): while a
run is in progress its stream is available, and the cursor never passes the end of the data. -/
def State.Inv (s : State) : Prop :=
  (s.phase = .idle ↔ s.rem = 0) ∧
  (s.err ≠ .none ↔ s.seqState = .aborted) ∧
  (s.seqState ≠ .segOverflow → s.curAddr.toNat ≤ 65535) ∧
  (s.seqState = .segOverflow → 65536 ≤ s.curAddr.toNat ∧ s.curAddr.toNat ≤ 65535 + 32) ∧
  (s.seqBusy = true → s.phase = .idle) ∧
  (s.seqState.code ≠ 7 ∧ s.err.code ≠ 3) ∧
  (s.seqBusy = true → s.inp.avail = true) ∧
  s.inp.pos ≤ s.inp.data.length

/-- The registers of the access table (R35); `STATUS` is a view (R31). -/
inductive Register where
  | acc | phase | rem | state | curAddr | segCnt | err | cfg
  deriving DecidableEq, Repr

/-- A register's contents as a number. -/
def State.register (s : State) : Register → Nat
  | .acc => s.acc.toNat
  | .phase => s.phase.code.toNat
  | .rem => s.rem.toNat
  | .state => s.seqState.code.toNat
  | .curAddr => s.curAddr.toNat
  | .segCnt => s.segCnt.toNat
  | .err => s.err.code.toNat
  | .cfg => s.cfg.word.toNat

/-- The `w` entries of the access table (R35), row by row. -/
def writtenRegisters : Instr → List Register
  | .csumClr => [.acc]
  | .csumAdd _ => [.acc]
  | .csumRd => []
  | .fmtHdr _ _ _ => [.acc, .phase, .rem]
  | .fmtDat _ => [.acc, .phase, .rem]
  | .fmtEof => []
  | .seqCfg _ _ _ => [.cfg]
  | .seqRun => [.state, .curAddr, .segCnt, .err]
  | .statRd => []
  | .reset => [.acc, .phase, .rem, .state, .curAddr, .segCnt, .err, .cfg]
  | .startAddress => [.acc, .state]
  | .data => [.acc, .state, .curAddr, .err]
  | .extendedSegmentAddress => [.acc, .state, .curAddr, .segCnt]
  | .endOfFile => [.state]

/-- A command of the command port, as against a step of the sequencer (R18). -/
def isCommand : Instr → Bool
  | .csumClr | .csumAdd _ | .csumRd | .fmtHdr _ _ _ | .fmtDat _ | .fmtEof | .seqCfg _ _ _ | .seqRun | .statRd
  | .reset => true
  | .data | .endOfFile | .extendedSegmentAddress | .startAddress => false

/-- The phase a command needs (R166); `none` for `STAT.RD`, `RESET` and the steps. -/
def neededPhase : Instr → Option Phase
  | .fmtDat _ => some .data
  | .csumClr | .csumAdd _ | .csumRd | .fmtHdr _ _ _ | .fmtEof | .seqCfg _ _ _ | .seqRun => some .idle
  | .statRd | .reset | .data | .endOfFile | .extendedSegmentAddress | .startAddress => none

/-- The transitions of the table of R136 that change `STATE`, but for `RESET`, which leads to `IDLE` from any. -/
def transitions : List (SeqState × SeqState) :=
  [(.idle, .start), (.halted, .start), (.aborted, .start),
   (.idle, .aborted), (.halted, .aborted),
   (.start, .streaming),
   (.streaming, .segOverflow), (.streaming, .done), (.streaming, .aborted),
   (.segOverflow, .streaming),
   (.done, .halted)]

/-- The 19 codes of R64. -/
def outputCodes : List Byte :=
  [0x3A, 0x30, 0x31, 0x32, 0x33, 0x34, 0x35, 0x36, 0x37, 0x38, 0x39, 0x41, 0x42, 0x43, 0x44, 0x45, 0x46, 0x0A, 0x0D]

/-- `0123456789ABCDEF` as codes (R116 b). -/
def hexCodes : List Byte :=
  [0x30, 0x31, 0x32, 0x33, 0x34, 0x35, 0x36, 0x37, 0x38, 0x39, 0x41, 0x42, 0x43, 0x44, 0x45, 0x46]

/-- `s` after a response and nothing else (R165). -/
def State.answered (s : State) (w : ResponseWord) : State := { s with rsps := s.rsps ++ [w] }

/-- The command draws `BUSY` during a run and `BAD_PHASE` in the other phase, and each refusal leaves everything
but the response as it was (R164 to R166). -/
def RefusedOutside (need : Phase) (i : Instr) : Prop :=
  ∀ s : State,
    (s.seqBusy = true → exec i s = .next (s.answered 0x500)) ∧
    (s.seqBusy = false → s.phase ≠ need → exec i s = .next (s.answered 0x300))

/-- Instructions one after another (R84), each from the state the one before left. -/
def execAll : List Instr → State → Result
  | [], s => .next s
  | i :: rest, s =>
    match exec i s with
    | .next t => execAll rest t
    | .fault r => .fault r
    | .refused r => .refused r

/-- `k` steps of the machine, stopping at the first that has no next state. -/
def stepMany : Nat → State → Result
  | 0, s => .next s
  | k + 1, s =>
    match step s with
    | .next t => stepMany k t
    | .fault r => .fault r
    | .refused r => .refused r

/-- The value of a hexadecimal digit's code, uppercase only (R65). -/
def digitValue (c : Byte) : Option Nat :=
  if 0x30 ≤ c.toNat ∧ c.toNat ≤ 0x39 then some (c.toNat - 0x30)
  else if 0x41 ≤ c.toNat ∧ c.toNat ≤ 0x46 then some (c.toNat - 0x41 + 10)
  else none

/-- Characters read back as bytes, pair by pair (R116 d). -/
def readPairs : List Byte → Option (List Byte)
  | [] => some []
  | [_] => none
  | hi :: lo :: rest =>
    match digitValue hi, digitValue lo, readPairs rest with
    | some h, some l, some bytes => some (BitVec.ofNat 8 (16 * h + l) :: bytes)
    | _, _, _ => none

end Sys2Proof.Machine
end

