-- ==== Sys2Proof/Certificates/Slice0/Obligations.lean ====
section
/-! DEFINITION. The statements for the provers, drawn from the numbered rules of spec/. -/

open Sys2Proof Sys2Proof.Machine

/-! ### Encoding (30_encoding) -/

/-- R82, R83: every instruction is read back from its encoding, with every operand at every value. -/
def Obligations.DecodeInvertsEncode : Prop :=
  ∀ i : Instr, decode (encode i) = .ok i

/-- R77 to R83, D7: an accepted word is in one-to-one relation with its instruction. -/
def Obligations.EncodeInvertsDecode : Prop :=
  ∀ (e : Encoding) (i : Instr), decode e = .ok i → encode i = e

/-- R82, which the spec marks as derived: the decoder on every word of 36 bits, by its operation code and its reserved bits. -/
def Obligations.DecodingIsTheProcedure : Prop :=
  ∀ (op : BitVec 4) (arg : BitVec 32),
    decodeCommand (commandWord op arg) =
      if op = 0x0 then (if arg = 0 then .ok .csumClr else .error .rsvBits)
      else if op = 0x1 then
        (if arg.toNat < 256 then .ok (.csumAdd (BitVec.ofNat 8 arg.toNat)) else .error .rsvBits)
      else if op = 0x2 then (if arg = 0 then .ok .csumRd else .error .rsvBits)
      else if op = 0x4 then
        .ok (.fmtHdr (BitVec.ofNat 8 (arg.toNat / 2 ^ 24)) (BitVec.ofNat 16 (arg.toNat / 2 ^ 8))
          (BitVec.ofNat 8 arg.toNat))
      else if op = 0x5 then
        (if arg.toNat < 256 then .ok (.fmtDat (BitVec.ofNat 8 arg.toNat)) else .error .rsvBits)
      else if op = 0x6 then (if arg = 0 then .ok .fmtEof else .error .rsvBits)
      else if op = 0x8 then
        (if arg.toNat < 2 ^ 18 then
          .ok (.seqCfg (BitVec.ofNat 16 arg.toNat) (BitVec.ofNat 1 (arg.toNat / 2 ^ 16))
            (BitVec.ofNat 1 (arg.toNat / 2 ^ 17)))
        else .error .rsvBits)
      else if op = 0x9 then (if arg = 0 then .ok .seqRun else .error .rsvBits)
      else if op = 0xC then (if arg = 0 then .ok .statRd else .error .rsvBits)
      else if op = 0xF then (if arg = 0 then .ok .reset else .error .rsvBits)
      else .error .illOp

/-- R83 and the words of 95_test_vectors: written-out words decode to the instructions they stand for. -/
def Obligations.WrittenWordsDecode : Prop :=
  decodeCommand 0x420000000 = .ok (.fmtHdr 0x20 0x0000 0x00) ∧
  decodeCommand 0x1000000AA = .ok (.csumAdd 0xAA) ∧
  decodeCommand 0x403123400 = .ok (.fmtHdr 3 0x1234 0x00) ∧
  decodeCommand 0x800020100 = .ok (.seqCfg 0x0100 0 1) ∧
  decodeCommand 0x900000000 = .ok .seqRun ∧
  decodeCommand 0xF00000000 = .ok .reset ∧
  decodeCommand 0xF80000000 = .error .rsvBits ∧
  decodeCommand 0x3FFFFFFFF = .error .illOp ∧
  decodeRecordType 0x04 = .ok .startAddress ∧
  decodeRecordType 0x03 = .error .rsvType

/-- R70, R73: the record rows are read from their type bytes, and every other type byte is reserved. -/
def Obligations.RecordTypesDecode : Prop :=
  ∀ type : Byte,
    decodeRecordType type =
      if type = 0x00 then .ok .data
      else if type = 0x01 then .ok .endOfFile
      else if type = 0x02 then .ok .extendedSegmentAddress
      else if type = 0x04 then .ok .startAddress
      else .error .rsvType

/-! ### The step -/

/-- A presented command that decodes is executed by `exec` from the state with the command taken off and a
new turn drawn; with a step enabled this is so when it is the host's turn (R195). The queue and the turn are
the model's form of the host (log entries 2, 3). -/
def Obligations.StepRunsDecodedCommand : Prop :=
  ∀ (s : State) (cw : CommandWord) (rest : List CommandWord) (i : Instr),
    s.cmds = cw :: rest → s.seqBusy = false ∨ s.turn = .host → decode (.command cw) = .ok i →
    step s = exec i { s with cmds := rest, turn := Config.freeTurn s.ticks, ticks := s.ticks + 1 }

/-- The step that `STATE` enables is executed by `exec` of its record row (R136), when no command waits or it
is the sequencer's turn (R195). The queue and the turn are the model's (log entries 2, 3). -/
def Obligations.StepRunsEnabledStep : Prop :=
  ∀ s : State, s.seqBusy = true → s.cmds = [] ∨ s.turn = .sequencer →
    step s =
      exec (match s.seqState with
          | .start => .startAddress
          | .streaming => .data
          | .segOverflow => .extendedSegmentAddress
          | _ => .endOfFile)
        { s with turn := Config.freeTurn s.ticks, ticks := s.ticks + 1 }

/-- R182, R141: with no run in progress and no command, the block does nothing (log entry 5). -/
def Obligations.NothingHappensUntilCommand : Prop :=
  ∀ s : State, s.seqBusy = false → s.cmds = [] → step s = .next s

/-- R81, R165: a presented word that decoding refuses is answered with its code and data 0x00, and changes no
register, no output and no input. -/
def Obligations.RejectedWordOnlyAnswers : Prop :=
  ∀ (s : State) (cw : CommandWord) (rest : List CommandWord) (code : RspCode),
    s.cmds = cw :: rest → s.seqBusy = false ∨ s.turn = .host → decode (.command cw) = .error code →
    step s = .next { s with
      cmds := rest, turn := Config.freeTurn s.ticks, ticks := s.ticks + 1,
      rsps := s.rsps ++ [if code = .illOp then 0x100 else 0x200] }

/-! ### Reset and the invariants (10_state, 70_reset_and_hazards) -/

/-- R34: the value of every register after power-on reset and after the command `RESET`, which touches neither
`OUT` nor `IN`. -/
def Obligations.ResetValues : Prop :=
  State.reset.acc = 0 ∧ State.reset.phase = .idle ∧ State.reset.rem = 0 ∧ State.reset.seqState = .idle ∧
  State.reset.curAddr = 0 ∧ State.reset.segCnt = 0 ∧ State.reset.err = .none ∧
  State.reset.cfg.initAddr = 0 ∧ State.reset.cfg.startEn = 1 ∧ State.reset.cfg.eol = 0 ∧
  State.reset.status = 0x00 ∧
  ∀ s : State, ∃ t, exec .reset s = .next t ∧ (∀ r : Register, t.register r = State.reset.register r) ∧
    t.status = 0x00 ∧ t.out = s.out ∧ t.inp = s.inp

/-- R133: `RESET`, in every state. -/
def Obligations.ResetCommandResets : Prop :=
  encode .reset = .command 0xF00000000 ∧
  (∀ arg : BitVec 32, arg ≠ 0 → decodeCommand (commandWord 0xF arg) = .error .rsvBits) ∧
  ∀ s : State,
    exec .reset s = .next { s with
      acc := 0, phase := .idle, rem := 0, seqState := .idle, curAddr := 0, segCnt := 0, err := .none,
      cfg := { initAddr := 0, startEn := 1, eol := 0 },
      rsps := s.rsps ++ [0x000] }

/-- R36, which the spec marks as derived, and R24: the invariants hold after reset. The stream's part of
`State.Inv` is the model's addition from R42 and R161, and that it holds here rests on the input the model puts
into `State.reset` (log entry 7, the model's choice). -/
def Obligations.InvariantsHoldAtReset : Prop := State.reset.Inv

/-- R36, which the spec marks as derived, and R24: every action of the machine keeps the invariants, from any
state that has them. The stream's part of `State.Inv` is the model's addition, inferred from R42, R43 and R161. -/
def Obligations.StepKeepsInvariants : Prop :=
  ∀ s t : State, s.Inv → step s = .next t → t.Inv

/-! ### The checksum accumulator (40_checksum) -/

/-- R91, and R92, which the spec marks as derived: the document's two forms and `Neg8` of the 8-bit sum agree, at any register width of 8 or more. -/
def Obligations.ChecksumFormsAgree : Prop :=
  ∀ (s : List Byte) (w : Nat), 8 ≤ w →
    (~~~(BitVec.ofNat w (byteSum s)) + 1).setWidth 8 = checksum s ∧ checksum s = neg8 (sum8 s)

/-- R93, which the spec marks as derived: the forms of `Neg8`, its involution, and the rows of its table. -/
def Obligations.NegationOfByte : Prop :=
  (∀ a : Byte,
    (neg8 a).toNat = (256 - a.toNat) % 256 ∧ neg8 a = (a ^^^ 0xFF) + 1 ∧ neg8 (neg8 a) = a ∧ a + neg8 a = 0) ∧
  neg8 0x00 = 0x00 ∧ neg8 0x01 = 0xFF ∧ neg8 0x02 = 0xFE ∧ neg8 0x05 = 0xFB ∧ neg8 0x06 = 0xFA ∧
  neg8 0x60 = 0xA0 ∧ neg8 0x80 = 0x80 ∧ neg8 0x81 = 0x7F ∧ neg8 0xA0 = 0x60 ∧ neg8 0xFE = 0x02 ∧
  neg8 0xFF = 0x01 ∧ neg8 0x7F = 0x81 ∧ ∀ s : List Byte, checksum s = neg8 (sum8 s)

/-- R94: the self-verifying property, and, which the spec marks as derived, that the checksum is the only byte
that has it. -/
def Obligations.ChecksumVerifiesItself : Prop :=
  ∀ (s : List Byte) (b : Byte), sum8 (s ++ [b]) = 0 ↔ b = checksum s

/-- R96, which the spec marks as derived: the laws of `Sum8`. -/
def Obligations.SumLaws : Prop :=
  (∀ s t : List Byte, (sum8 (s ++ t)).toNat = ((sum8 s).toNat + (sum8 t).toNat) % 256) ∧
  (∀ s t : List Byte, s.Perm t → sum8 s = sum8 t ∧ checksum s = checksum t) ∧
  (∀ s : List Byte, sum8 (s ++ [0x00]) = sum8 s)

/-- R98: `CSUM.CLR`. -/
def Obligations.CsumClrClears : Prop :=
  encode .csumClr = .command 0x000000000 ∧
  (∀ arg : BitVec 32, arg ≠ 0 → decodeCommand (commandWord 0x0 arg) = .error .rsvBits) ∧
  RefusedOutside .idle .csumClr ∧
  ∀ s : State, s.seqBusy = false → s.phase = .idle →
    exec .csumClr s = .next { s with acc := 0, rsps := s.rsps ++ [0x000] }

/-- R99: `CSUM.ADD`. -/
def Obligations.CsumAddAdds : Prop :=
  (∀ b : Byte, encode (.csumAdd b) = .command (0x100000000 + b.setWidth 36)) ∧
  (∀ arg : BitVec 32, arg.extractLsb' 8 24 ≠ 0 → decodeCommand (commandWord 0x1 arg) = .error .rsvBits) ∧
  (∀ b : Byte, RefusedOutside .idle (.csumAdd b)) ∧
  ∀ (b : Byte) (s : State), s.seqBusy = false → s.phase = .idle →
    exec (.csumAdd b) s =
      .next { s with acc := BitVec.ofNat 8 ((s.acc.toNat + b.toNat) % 256), rsps := s.rsps ++ [0x000] }

/-- R100: `CSUM.RD`. -/
def Obligations.CsumRdAnswers : Prop :=
  encode .csumRd = .command 0x200000000 ∧
  (∀ arg : BitVec 32, arg ≠ 0 → decodeCommand (commandWord 0x2 arg) = .error .rsvBits) ∧
  RefusedOutside .idle .csumRd ∧
  ∀ s : State, s.seqBusy = false → s.phase = .idle →
    exec .csumRd s =
      .next { s with rsps := s.rsps ++ [BitVec.ofNat 12 ((256 - s.acc.toNat) % 256)] }

/-- R101, which the spec marks as derived: `CSUM.OF` is accepted throughout, and its last answer is the checksum. -/
def Obligations.CsumOfComputesChecksum : Prop :=
  ∀ (s : State) (bytes : List Byte), s.seqBusy = false → s.phase = .idle →
    execAll (csumOf bytes) s =
      .next { s with
        acc := sum8 bytes
        rsps := s.rsps ++ List.replicate (bytes.length + 1) 0x000 ++ [(checksum bytes).setWidth 12] }

/-! ### The record format and the formatter (30_encoding, 41_formatter) -/

/-- R65, R66: the digits' codes; `Hex2` is always two characters, the high nibble's first, and is read back as
its byte. -/
def Obligations.HexPairIsTwoDigits : Prop :=
  (∀ n : BitVec 4, (hexDigit n).toNat = if n.toNat ≤ 9 then 0x30 + n.toNat else 0x41 + (n.toNat - 10)) ∧
  (∀ b : Byte, hex2 b = [hexDigit (BitVec.ofNat 4 (b.toNat / 16)), hexDigit (BitVec.ofNat 4 (b.toNat % 16))] ∧
    readPairs (hex2 b) = some [b]) ∧
  hex2 0x00 = [0x30, 0x30] ∧ hex2 0x0A = [0x30, 0x41] ∧ hex2 0xAA = [0x41, 0x41] ∧ hex2 0xFF = [0x46, 0x46]

/-- R62, and R63, which the spec marks as derived: the length of a line and the place of each of its characters. -/
def Obligations.LineCharacterPositions : Prop :=
  ∀ (count : Byte) (addr : BitVec 16) (type : Byte) (data : List Byte), data.length = count.toNat →
    (line count addr type data).length = 11 + 2 * count.toNat ∧
    (line count addr type data).take 9 =
      0x3A :: (hex2 count ++ hex2 (BitVec.ofNat 8 (addr.toNat / 256)) ++ hex2 (BitVec.ofNat 8 (addr.toNat % 256)) ++
        hex2 type) ∧
    (∀ (i : Nat) (h : i < data.length),
      ((line count addr type data).drop (9 + 2 * i)).take 2 = hex2 data[i]) ∧
    (line count addr type data).drop (9 + 2 * count.toNat) = hex2 (checksum (recordBytes count addr type data))

/-- R116, which the spec marks as derived: what every line the formatter emits looks like, and that read back pair by pair it is the record's
bytes and their checksum, which sum to 0. -/
def Obligations.LineReadsBack : Prop :=
  ∀ (count : Byte) (addr : BitVec 16) (type : Byte) (data : List Byte), data.length = count.toNat →
    ∃ rest : List Byte, line count addr type data = 0x3A :: rest ∧ (∀ c ∈ rest, c ∈ hexCodes) ∧
      rest.length = 10 + 2 * count.toNat ∧
      readPairs rest = some (recordBytes count addr type data ++ [checksum (recordBytes count addr type data)]) ∧
      sum8 (recordBytes count addr type data ++ [checksum (recordBytes count addr type data)]) = 0

/-- R97, and R71, which the spec marks as derived: the fixed texts are the computed ones. -/
def Obligations.FixedRecordTexts : Prop :=
  eofText = line 0 0x0000 0x01 [] ∧
  line 2 0x0000 0x04 [0x00, 0x00] =
    [0x3A, 0x30, 0x32, 0x30, 0x30, 0x30, 0x30, 0x30, 0x34, 0x30, 0x30, 0x30, 0x30, 0x46, 0x41] ∧
  line 2 0x0000 0x02 (bigEndian 1) =
    [0x3A, 0x30, 0x32, 0x30, 0x30, 0x30, 0x30, 0x30, 0x32, 0x30, 0x30, 0x30, 0x31, 0x46, 0x42] ∧
  ∀ n : BitVec 16,
    line 2 0x0000 0x02 (bigEndian n) =
      [0x3A, 0x30, 0x32, 0x30, 0x30, 0x30, 0x30, 0x30, 0x32] ++ hex2 (n.extractLsb' 8 8) ++ hex2 (n.extractLsb' 0 8) ++
        hex2 (checksum [0x02, 0x00, 0x00, 0x02, n.extractLsb' 8 8, n.extractLsb' 0 8])

/-- R112: `FMT.HDR`. -/
def Obligations.FmtHdrOpensRecord : Prop :=
  (∀ (count : Byte) (addr : BitVec 16) (type : Byte),
    encode (.fmtHdr count addr type) =
      .command (BitVec.ofNat 36 (0x4 * 2 ^ 32 + count.toNat * 2 ^ 24 + addr.toNat * 2 ^ 8 + type.toNat)) ∧
    RefusedOutside .idle (.fmtHdr count addr type)) ∧
  ∀ (count : Byte) (addr : BitVec 16) (type : Byte) (s : State), s.seqBusy = false → s.phase = .idle →
    let hi := BitVec.ofNat 8 (addr.toNat / 256)
    let lo := BitVec.ofNat 8 (addr.toNat % 256)
    let sum := BitVec.ofNat 8 ((count.toNat + hi.toNat + lo.toNat + type.toNat) % 256)
    let header := 0x3A :: (hex2 count ++ hex2 hi ++ hex2 lo ++ hex2 type)
    (type ∉ [0x00, 0x01, 0x02, 0x04] → exec (.fmtHdr count addr type) s = .next (s.answered 0x400)) ∧
    (type ∈ [0x00, 0x01, 0x02, 0x04] → count = 0 →
      exec (.fmtHdr count addr type) s = .next { s with
        acc := sum, rem := 0, out := s.out ++ (header ++ hex2 (neg8 sum) ++ eol s.cfg.eol),
        rsps := s.rsps ++ [0x000] }) ∧
    (type ∈ [0x00, 0x01, 0x02, 0x04] → count ≠ 0 →
      exec (.fmtHdr count addr type) s = .next { s with
        acc := sum, rem := count, phase := .data, out := s.out ++ header,
        rsps := s.rsps ++ [0x000] })

/-- R113: `FMT.DAT`. A record is open exactly when bytes are still owed (R36 a), which is the premise. -/
def Obligations.FmtDatTakesByte : Prop :=
  (∀ b : Byte, encode (.fmtDat b) = .command (0x500000000 + b.setWidth 36) ∧ RefusedOutside .data (.fmtDat b)) ∧
  (∀ arg : BitVec 32, arg.extractLsb' 8 24 ≠ 0 → decodeCommand (commandWord 0x5 arg) = .error .rsvBits) ∧
  ∀ (b : Byte) (s : State), s.seqBusy = false → s.phase = .data → s.rem ≠ 0 →
    let sum := BitVec.ofNat 8 ((s.acc.toNat + b.toNat) % 256)
    (s.rem.toNat = 1 →
      exec (.fmtDat b) s = .next { s with
        acc := sum, rem := 0, phase := .idle, out := s.out ++ (hex2 b ++ hex2 (neg8 sum) ++ eol s.cfg.eol),
        rsps := s.rsps ++ [0x000] }) ∧
    (s.rem.toNat ≠ 1 →
      exec (.fmtDat b) s = .next { s with
        acc := sum, rem := BitVec.ofNat 8 (s.rem.toNat - 1), out := s.out ++ hex2 b,
        rsps := s.rsps ++ [0x000] })

/-- R114: `FMT.EOF`. -/
def Obligations.FmtEofEmitsFixedRecord : Prop :=
  encode .fmtEof = .command 0x600000000 ∧
  (∀ arg : BitVec 32, arg ≠ 0 → decodeCommand (commandWord 0x6 arg) = .error .rsvBits) ∧
  RefusedOutside .idle .fmtEof ∧
  ∀ s : State, s.seqBusy = false → s.phase = .idle →
    exec .fmtEof s = .next { s with
      out := s.out ++ ([0x3A, 0x30, 0x30, 0x30, 0x30, 0x30, 0x30, 0x30, 0x31, 0x46, 0x46] ++ eol s.cfg.eol),
      rsps := s.rsps ++ [0x000] }

/-- R68: the two terminators, and LF as the one the reset value of `CFG.EOL` selects. -/
def Obligations.TerminatorOfConfiguration : Prop :=
  eol 0 = [0x0A] ∧ eol 1 = [0x0D, 0x0A] ∧ (∀ e : BitVec 1, eol e = [0x0A] ∨ eol e = [0x0D, 0x0A]) ∧
  eol State.reset.cfg.eol = [0x0A]

/-- R115, which the spec marks as derived: one record through the port, for every count, address, admitted type and data. -/
def Obligations.RecordThroughThePort : Prop :=
  ∀ (s : State) (count : Byte) (addr : BitVec 16) (type : Byte) (data : List Byte),
    s.seqBusy = false → s.phase = .idle → type ∈ [0x00, 0x01, 0x02, 0x04] → data.length = count.toNat →
    execAll (fmtRec count addr type data) s = .next { s with
      acc := sum8 (recordBytes count addr type data)
      rem := 0
      out := s.out ++ formatRecord count addr type data s.cfg.eol
      rsps := s.rsps ++ List.replicate (1 + count.toNat) 0x000 }

/-- R112, R118, and R184, which the spec marks as derived: a header or a computed record sets `ACC` from its own bytes alone, so what `ACC` held
before it reaches neither the output nor `ACC` afterwards. -/
def Obligations.OldSumNeverLeaks : Prop :=
  ∀ (s : State) (v w : BitVec 8),
    (∀ (count : Byte) (addr : BitVec 16) (type : Byte), type ∈ [0x00, 0x01, 0x02, 0x04] →
      s.seqBusy = false → s.phase = .idle →
      exec (.fmtHdr count addr type) { s with acc := v } = exec (.fmtHdr count addr type) { s with acc := w }) ∧
    (s.segCnt ≠ 0xFFFF → s.seqState = .segOverflow →
      exec .extendedSegmentAddress { s with acc := v } = exec .extendedSegmentAddress { s with acc := w }) ∧
    (s.seqState = .start → s.cfg.startEn = 1 →
      exec .startAddress { s with acc := v } = exec .startAddress { s with acc := w }) ∧
    (s.seqState = .streaming → (streamRead 32 s.inp).buf ≠ [] →
      exec .data { s with acc := v } = exec .data { s with acc := w })

/-! ### The system commands (42_sequencer, section 2) -/

/-- R131: `SEQ.CFG` writes `CFG` and nothing else. -/
def Obligations.SeqCfgWritesConfiguration : Prop :=
  (∀ (a : BitVec 16) (st e : BitVec 1),
    encode (.seqCfg a st e) =
      .command (BitVec.ofNat 36 (0x8 * 2 ^ 32 + e.toNat * 2 ^ 17 + st.toNat * 2 ^ 16 + a.toNat)) ∧
    RefusedOutside .idle (.seqCfg a st e)) ∧
  (∀ arg : BitVec 32, arg.extractLsb' 18 14 ≠ 0 → decodeCommand (commandWord 0x8 arg) = .error .rsvBits) ∧
  ∀ (a : BitVec 16) (st e : BitVec 1) (s : State), s.seqBusy = false → s.phase = .idle →
    exec (.seqCfg a st e) s = .next { s with
      cfg := { initAddr := a, startEn := st, eol := e }, rsps := s.rsps ++ [0x000] }

/-- R135: `SEQ.RUN` binds the stream the environment offers next, with its cursor at 0. -/
def Obligations.SeqRunStartsRun : Prop :=
  encode .seqRun = .command 0x900000000 ∧
  (∀ arg : BitVec 32, arg ≠ 0 → decodeCommand (commandWord 0x9 arg) = .error .rsvBits) ∧
  RefusedOutside .idle .seqRun ∧
  ∀ (s : State) (i : Input) (rest : List Input), s.seqBusy = false → s.phase = .idle → s.streams = i :: rest →
    exec .seqRun s = .next { s with
      inp := { i with pos := 0 }, streams := rest
      curAddr := s.cfg.initAddr.setWidth 17, segCnt := 0
      err := if i.avail then .none else .inputUnavailable
      seqState := if i.avail then .start else .aborted
      rsps := s.rsps ++ [0x000] }

/-- The model's choice (log entry 4): when the environment offers no stream, `SEQ.RUN` finds the input
unavailable, as 60_exceptions says of a stream that was not handed over. -/
def Obligations.NoStreamOfferedIsUnavailable : Prop :=
  ∀ s : State, s.seqBusy = false → s.phase = .idle → s.streams = [] →
    exec .seqRun s = .next { s with
      inp := Input.unavailable
      curAddr := s.cfg.initAddr.setWidth 17, segCnt := 0
      err := .inputUnavailable, seqState := .aborted
      rsps := s.rsps ++ [0x000] }

/-- R132: `STAT.RD` in every state: the response carries `{0b00, ERR, PHASE, STATE}` and nothing changes; the
answers of R132's examples, and of V76, V97 and P3 of 95_test_vectors. -/
def Obligations.StatRdAnswersStatus : Prop :=
  encode .statRd = .command 0xC00000000 ∧
  (∀ arg : BitVec 32, arg ≠ 0 → decodeCommand (commandWord 0xC arg) = .error .rsvBits) ∧
  ∀ s : State,
    exec .statRd s = .next (s.answered
      (BitVec.ofNat 12 (16 * s.err.code.toNat + 8 * s.phase.code.toNat + s.seqState.code.toNat))) ∧
    (s.err = .none → s.phase = .idle → s.seqState = .idle → exec .statRd s = .next (s.answered 0x000)) ∧
    (s.err = .none → s.phase = .data → s.seqState = .idle → exec .statRd s = .next (s.answered 0x008)) ∧
    (s.err = .none → s.phase = .idle → s.seqState = .start → exec .statRd s = .next (s.answered 0x001)) ∧
    (s.err = .none → s.phase = .idle → s.seqState = .streaming → exec .statRd s = .next (s.answered 0x002)) ∧
    (s.err = .none → s.phase = .idle → s.seqState = .segOverflow → exec .statRd s = .next (s.answered 0x003)) ∧
    (s.err = .none → s.phase = .idle → s.seqState = .done → exec .statRd s = .next (s.answered 0x004)) ∧
    (s.err = .none → s.phase = .idle → s.seqState = .halted → exec .statRd s = .next (s.answered 0x005)) ∧
    (s.err = .readFailure → s.phase = .idle → s.seqState = .aborted → exec .statRd s = .next (s.answered 0x026)) ∧
    (s.err = .inputUnavailable → s.phase = .idle → s.seqState = .aborted → exec .statRd s = .next (s.answered 0x016))

/-- R134, R166: during a run `STAT.RD` and `RESET` are the only commands accepted; every other is answered
`BUSY`. -/
def Obligations.OnlyStatusAndResetDuringRun : Prop :=
  ∀ (i : Instr) (s : State), isCommand i = true → s.seqBusy = true →
    (i ≠ .statRd → i ≠ .reset → exec i s = .next (s.answered 0x500)) ∧
    (i = .statRd → exec i s = .next (s.answered (0x000#4 ++ s.status))) ∧
    (i = .reset → ∃ t, exec i s = .next t ∧ t.seqState = .idle ∧ t.rsps = s.rsps ++ [0x000])

/-- R166, R168: the admission table of the eight commands that need a phase. A command that has passed decoding is answered `BUSY` during a run,
`BAD_PHASE` in the wrong phase, `RSV_TYPE` for a header with a reserved type, each without any other effect,
and with `OK` otherwise. -/
def Obligations.AdmissionTable : Prop :=
  ∀ (i : Instr) (s : State) (need : Phase), neededPhase i = some need →
    (s.seqBusy = true → exec i s = .next (s.answered 0x500)) ∧
    (s.seqBusy = false → s.phase ≠ need → exec i s = .next (s.answered 0x300)) ∧
    (s.seqBusy = false → s.phase = need → i.wellFormed = false → exec i s = .next (s.answered 0x400)) ∧
    (s.seqBusy = false → s.phase = need → i.wellFormed = true →
      ∃ (t : State) (d : Byte), exec i s = .next t ∧ t.rsps = s.rsps ++ [0x0#4 ++ d])

/-- R166: `STAT.RD` and `RESET` are accepted in every state. -/
def Obligations.StatusAndResetAlwaysAccepted : Prop :=
  ∀ (i : Instr) (s : State), isCommand i = true →
    (neededPhase i = none ↔ i = .statRd ∨ i = .reset) ∧
    (neededPhase i = none → ∃ (t : State) (d : Byte), exec i s = .next t ∧ t.rsps = s.rsps ++ [0x0#4 ++ d])

/-! ### The steps of the sequencer (42_sequencer, section 3) -/

/-- R43: `StreamRead(n)` in its three cases. -/
def Obligations.StreamReadUntilFull : Prop :=
  ∀ (n : Nat) (i : Input), 1 ≤ n → n ≤ 255 → i.pos ≤ i.data.length →
    (i.pos + n ≤ i.data.length →
      streamRead n i =
        { buf := (i.data.drop i.pos).take n, status := .full, rest := { i with pos := i.pos + n } }) ∧
    (i.data.length < i.pos + n → i.ending = .eos →
      streamRead n i =
        { buf := i.data.drop i.pos, status := .short, rest := { i with pos := i.data.length } }) ∧
    (i.data.length < i.pos + n → i.ending = .fail →
      streamRead n i = { buf := [], status := .fail, rest := { i with pos := i.data.length } })

/-- From R43, R44 and R53 a: the answers of successive reads are consecutive pieces of the stream's data, of the length
asked for as long as the stream lasts. -/
def Obligations.ReadsAreConsecutive : Prop :=
  ∀ (n : Nat) (i : Input), i.pos ≤ i.data.length → (streamRead n i).status ≠ .fail →
    (streamRead n i).rest.data = i.data ∧
    (streamRead n i).rest.pos = i.pos + (streamRead n i).buf.length ∧
    i.data.drop i.pos = (streamRead n i).buf ++ (streamRead n i).rest.data.drop (streamRead n i).rest.pos ∧
    ((streamRead n i).status = .full ↔ (streamRead n i).buf.length = n)

/-- R137: the step `START`. -/
def Obligations.StartStepEmitsStartRecord : Prop :=
  ∀ s : State, s.seqState = .start →
    (s.cfg.startEn = 1 →
      exec .startAddress s = .next { s with
        acc := 0x06, seqState := .streaming
        out := s.out ++ ([0x3A, 0x30, 0x32, 0x30, 0x30, 0x30, 0x30, 0x30, 0x34, 0x30, 0x30, 0x30, 0x30, 0x46, 0x41] ++
          eol s.cfg.eol) }) ∧
    (s.cfg.startEn = 0 → exec .startAddress s = .next { s with seqState := .streaming })

/-- R138: the step `STREAMING` in its four cases. Before the step the running address is at most 65535
(R36 c), which is the premise. -/
def Obligations.StreamingStepReadsChunk : Prop :=
  ∀ s : State, s.seqState = .streaming → s.curAddr.toNat ≤ 65535 →
    let a := streamRead 32 s.inp
    let record := recordBytes (BitVec.ofNat 8 a.buf.length) (BitVec.ofNat 16 s.curAddr.toNat) 0x00 a.buf
    let text := s.out ++
      formatRecord (BitVec.ofNat 8 a.buf.length) (BitVec.ofNat 16 s.curAddr.toNat) 0x00 a.buf s.cfg.eol
    (a.status = .fail →
      exec .data s = .next { s with inp := a.rest, err := .readFailure, seqState := .aborted }) ∧
    (a.status = .short → a.buf = [] →
      exec .data s = .next { s with inp := a.rest, seqState := .done }) ∧
    (a.status = .short → a.buf ≠ [] →
      exec .data s = .next { s with inp := a.rest, acc := sum8 record, out := text, seqState := .done }) ∧
    (a.status = .full →
      exec .data s = .next { s with
        inp := a.rest, acc := sum8 record, out := text
        curAddr := BitVec.ofNat 17 (s.curAddr.toNat + 32)
        seqState := if s.curAddr.toNat + 32 > 65535 then .segOverflow else .streaming })

/-- R139: the step `SEG_OVERFLOW`, and the refusal the spec orders at `SEG_CNT` = 0xFFFF (U1). -/
def Obligations.SegmentStepEmitsSegmentRecord : Prop :=
  ∀ s : State, s.seqState = .segOverflow →
    (s.segCnt = 0xFFFF → exec .extendedSegmentAddress s = .refused .segmentCounterExhausted) ∧
    (s.segCnt ≠ 0xFFFF → 65536 ≤ s.curAddr.toNat → s.curAddr.toNat ≤ 65535 + 32 →
      let n := s.segCnt + 1
      let hi := BitVec.ofNat 8 (n.toNat / 256)
      let lo := BitVec.ofNat 8 (n.toNat % 256)
      (s.curAddr - 65535).toNat + 65535 = s.curAddr.toNat ∧
      1 ≤ (s.curAddr - 65535).toNat ∧ (s.curAddr - 65535).toNat ≤ 32 ∧
      n.toNat = s.segCnt.toNat + 1 ∧
      exec .extendedSegmentAddress s = .next { s with
        curAddr := s.curAddr - 65535
        segCnt := n
        acc := sum8 [0x02, 0x00, 0x00, 0x02, hi, lo]
        out := s.out ++ formatRecord 2 0x0000 0x02 [hi, lo] s.cfg.eol
        seqState := .streaming })

/-- From R139 (corner case a) and U10: for both values of `SEG_SUB` the reduced address is inside `[0, 65535]`, so the document's
clamp never has anything to do. -/
def Obligations.ReducedAddressInRange : Prop :=
  ∀ (s : State) (p : Params), p.legal = true →
    65536 ≤ s.curAddr.toNat → s.curAddr.toNat ≤ 65535 + p.chunk →
    (s.segmentStep p).curAddr.toNat + p.segSub.toNat = s.curAddr.toNat ∧
    (s.segmentStep p).curAddr.toNat ≤ p.chunk

/-- R140: the step `DONE`. -/
def Obligations.DoneStepEmitsEndOfFile : Prop :=
  ∀ s : State, s.seqState = .done →
    exec .endOfFile s = .next { s with
      out := s.out ++ ([0x3A, 0x30, 0x30, 0x30, 0x30, 0x30, 0x30, 0x30, 0x31, 0x46, 0x46] ++ eol s.cfg.eol)
      seqState := .halted }

/-- R136: the model answers a step in a state that does not enable it with a refusal of its own (log entry 6),
and leaves no other outcome for it. -/
def Obligations.StepOutsideItsStateRefused : Prop :=
  ∀ s : State,
    (s.seqState ≠ .start → exec .startAddress s = .refused .stepNotEnabled) ∧
    (s.seqState ≠ .streaming → exec .data s = .refused .stepNotEnabled) ∧
    (s.seqState ≠ .segOverflow → exec .extendedSegmentAddress s = .refused .stepNotEnabled) ∧
    (s.seqState ≠ .done → exec .endOfFile s = .refused .stepNotEnabled)

/-! ### Frames -/

/-- R35, which the spec marks as derived: a register that the access table does not let an instruction write keeps its value. -/
def Obligations.AccessTableFrame : Prop :=
  ∀ (i : Instr) (s t : State), exec i s = .next t →
    ∀ r : Register, r ∉ writtenRegisters i → t.register r = s.register r

/-- R40, R42, R133: only the formatter's commands and the steps append to `OUT`, only `SEQ.RUN` binds and only
`STREAMING` reads the input, a command answers exactly once and a step never, and no instruction touches the
host's queue or the model's turn (log entries 2, 3). -/
def Obligations.StreamsFrame : Prop :=
  ∀ (i : Instr) (s t : State), exec i s = .next t →
    (i ∈ [.csumClr, .csumRd, .seqRun, .statRd, .reset] ∨ (∃ b, i = .csumAdd b) ∨ (∃ a x y, i = .seqCfg a x y) →
      t.out = s.out) ∧
    (i ≠ .seqRun → i ≠ .data → t.inp = s.inp) ∧
    (i ≠ .seqRun → t.streams = s.streams) ∧
    (isCommand i = true → ∃ w : ResponseWord, t.rsps = s.rsps ++ [w]) ∧
    (isCommand i = false → t.rsps = s.rsps) ∧
    t.cmds = s.cmds ∧ t.turn = s.turn ∧ t.ticks = s.ticks

/-! ### The whole machine -/

/-- R45, R64: no action removes or changes a character of `OUT`, and every character appended is one of the 19
codes. -/
def Obligations.OutputAppendsOnlyListedCodes : Prop :=
  ∀ s t : State, step s = .next t →
    ∃ cs : List Byte, t.out = s.out ++ cs ∧ ∀ c ∈ cs, c ∈ outputCodes

/-- R136: the only changes of `STATE` are those of the transition table. -/
def Obligations.OnlyTableTransitions : Prop :=
  ∀ s t : State, step s = .next t →
    t.seqState = s.seqState ∨ (s.seqState, t.seqState) ∈ transitions ∨ t.seqState = .idle

/-- R160 to R162, R170: `ABORTED` is entered only by a `SEQ.RUN` whose input is unavailable and by a failed
read, each with its code, and such an action emits nothing. -/
def Obligations.OnlyInputErrorsAbort : Prop :=
  ∀ s t : State, step s = .next t → s.seqState ≠ .aborted → t.seqState = .aborted →
    t.out = s.out ∧
    ((s.seqBusy = false ∧ t.inp.avail = false ∧ t.err = .inputUnavailable) ∨
      (s.seqState = .streaming ∧ (streamRead 32 s.inp).status = .fail ∧ t.err = .readFailure ∧
        t.acc = s.acc ∧ t.curAddr = s.curAddr ∧ t.segCnt = s.segCnt))

/-- R30, R56: `CFG` changes only by `SEQ.CFG`, which is refused during a run and while a record is open, and by
`RESET`. -/
def Obligations.ConfigurationHeldDuringRun : Prop :=
  ∀ s t : State, step s = .next t → s.seqBusy = true ∨ s.phase = .data → t.cfg ≠ s.cfg →
    ∃ rest, s.cmds = 0xF00000000 :: rest ∧ t.cfg = State.reset.cfg ∧ t.seqState = .idle ∧ t.phase = .idle

/-- R136, R139, R165: every action of the machine has a next state, but for the one case the spec leaves
without meaning (U1). That a refused command is a next state is the model's choice among the two R165 allows
(log entry 1). -/
def Obligations.EveryActionCompletes : Prop :=
  ∀ s : State,
    (∃ t, step s = .next t) ∨
    (s.seqState = .segOverflow ∧ s.segCnt = 0xFFFF ∧ step s = .refused .segmentCounterExhausted)

/-! ### Whole runs (42_sequencer, sections 4 and 5) -/

/-- R150 and R146, which the spec marks as derived: a run started by `SEQ.RUN`, with no further command, appends what `Encode` says and ends as it
says. A good run takes the steps R146 counts, after the one action that is `SEQ.RUN` itself. -/
def Obligations.RunIsEncode : Prop :=
  ∀ (s : State) (i : Input) (others : List Input),
    s.seqBusy = false → s.phase = .idle → s.cmds = [0x900000000] → s.streams = i :: others →
    match (encodeRun params s.cfg i).2 with
    | .halted => ∃ t, stepMany (i.data.length / 32 + 4 + t.segCnt.toNat) s = .next t ∧ t.seqState = .halted ∧
        t.err = .none ∧ t.out = s.out ++ (encodeRun params s.cfg i).1
    | .inputUnavailable => ∃ t, stepMany 1 s = .next t ∧ t.seqState = .aborted ∧ t.err = .inputUnavailable ∧
        t.out = s.out
    | .readFailure => ∃ (k : Nat) (t : State), stepMany k s = .next t ∧ t.seqState = .aborted ∧
        t.err = .readFailure ∧ t.out = s.out ++ (encodeRun params s.cfg i).1
    | .unspecified => ∃ k : Nat, stepMany k s = .refused .segmentCounterExhausted
    | .outOfFuel => False

/-- R142, which the spec marks as derived: the records of a good run: the Start-Address record exactly when enabled, then Data and segment
records, a segment record only directly after a full Data record, then exactly one End-Of-File record, last. -/
def Obligations.GoodRunRecordOrder : Prop :=
  ∀ (cfg : Cfg) (i : Input), (runRecords params cfg i).2 = .halted →
    ∃ middle : List Record,
      (runRecords params cfg i).1 =
        (if cfg.startEn = 1 then [startRecord] else []) ++ middle ++ [eofRecord] ∧
      (∀ r ∈ middle, r.type = 0x00 ∨ r.type = 0x02) ∧
      ∀ (before after : List Record) (r : Record), middle = before ++ r :: after → r.type = 0x02 →
        ∃ (earlier : List Record) (d : Record), before = earlier ++ [d] ∧ d.type = 0x00 ∧ d.count = 32

/-- R143, which the spec marks as derived: the Data records of a good run carry the chunks of the input, in order, 32 bytes each but for a
shorter last one; there are `ceil(N / 32)` of them. -/
def Obligations.DataRecordsCarryChunks : Prop :=
  ∀ (cfg : Cfg) (i : Input), (runRecords params cfg i).2 = .halted →
    let records := (runRecords params cfg i).1.filter fun r => r.type == 0x00
    records.length = (i.data.length + 31) / 32 ∧
    (records.flatMap Record.data) = i.data ∧
    ∀ (n : Nat) (h : n < records.length),
      records[n].data = (i.data.drop (32 * n)).take 32 ∧ records[n].count.toNat = records[n].data.length

/-- R144, which the spec marks as derived: the address of each Data record that follows another: 32 more, or, after an overflow, 32 more less
`SEG_SUB`, with a segment record between the two. The first address is `CFG.INIT_ADDR`. -/
def Obligations.AddressSequenceOfRun : Prop :=
  ∀ (cfg : Cfg) (i : Input),
    let records := (runRecords params cfg i).1
    (∀ (before after : List Record) (r : Record), records = before ++ r :: after → r.type = 0x00 →
      (∀ d ∈ before, d.type ≠ 0x00) → r.addr = cfg.initAddr) ∧
    ∀ (before between after : List Record) (r q : Record),
      records = before ++ r :: (between ++ q :: after) → r.type = 0x00 → q.type = 0x00 →
      (∀ d ∈ between, d.type ≠ 0x00) →
      (r.addr.toNat + 32 ≤ 65535 → between = [] ∧ q.addr.toNat = r.addr.toNat + 32) ∧
      (65535 < r.addr.toNat + 32 →
        (∃ n, between = [segmentRecord n]) ∧ q.addr.toNat + 65535 = r.addr.toNat + 32)

/-- R145, which the spec marks as derived: the j-th segment record of a run, counted from 1, carries j. -/
def Obligations.SegmentRecordsCountUp : Prop :=
  ∀ (cfg : Cfg) (i : Input),
    let records := (runRecords params cfg i).1.filter fun r => r.type == 0x02
    records = (List.range records.length).map (fun j => segmentRecord (j + 1)) ∧ records.length ≤ 65535

/-- R145, which the spec marks as derived: from base address 0 and below 2162656 bytes, a run that ends well has one segment record for every full
65536 bytes. -/
def Obligations.SegmentRecordsCountBoundaries : Prop :=
  ∀ (cfg : Cfg) (i : Input), cfg.initAddr = 0 → i.data.length < 2162656 → (runRecords params cfg i).2 = .halted →
    ((runRecords params cfg i).1.filter fun r => r.type == 0x02).length = i.data.length / 65536

/-- R197, which the spec marks as derived: the number of characters a good run appends, with `S` its number of segment records. -/
def Obligations.OutputVolumeOfGoodRun : Prop :=
  ∀ (cfg : Cfg) (i : Input), (runRecords params cfg i).2 = .halted →
    let n := i.data.length
    let s := ((runRecords params cfg i).1.filter fun r => r.type == 0x02).length
    let start := if cfg.startEn = 1 then 1 else 0
    let terminator := if cfg.eol = 1 then 2 else 1
    (encodeRun params cfg i).1.length =
      2 * n + 11 * ((n + 31) / 32) + 15 * s + 15 * start + 11 +
        terminator * ((n + 31) / 32 + s + start + 1)
end

