-- ==== Sys2Proof/Laws/Operands.lean ====
section
/-! SUPPORT. The small lemmas of the pure functions (R15): lengths, and what characters they produce. -/

namespace Sys2Proof.Machine

@[simp] theorem hex2_length (b : Byte) : (hex2 b).length = 2 := rfl

@[simp] theorem hexPairs_nil : hexPairs [] = [] := rfl

@[simp] theorem hexPairs_cons (b : Byte) (s : List Byte) : hexPairs (b :: s) = hex2 b ++ hexPairs s := rfl

@[simp] theorem hexPairs_append (s t : List Byte) : hexPairs (s ++ t) = hexPairs s ++ hexPairs t := by
  simp [hexPairs]

@[simp] theorem hexPairs_length (s : List Byte) : (hexPairs s).length = 2 * s.length := by
  induction s with
  | nil => rfl
  | cons b s ih => simp [ih]; omega

@[simp] theorem headerBytes_length (count : Byte) (addr : BitVec 16) (type : Byte) :
    (headerBytes count addr type).length = 4 := rfl

@[simp] theorem recordBytes_length (count : Byte) (addr : BitVec 16) (type : Byte) (data : List Byte) :
    (recordBytes count addr type data).length = 4 + data.length := by
  simp [recordBytes]

@[simp] theorem eol_length (e : BitVec 1) : (eol e).length = if e = 0 then 1 else 2 := by
  unfold eol; split <;> rfl

@[simp] theorem byteSum_nil : byteSum [] = 0 := rfl

@[simp] theorem byteSum_cons (b : Byte) (s : List Byte) : byteSum (b :: s) = b.toNat + byteSum s := by
  simp [byteSum]

@[simp] theorem byteSum_append (s t : List Byte) : byteSum (s ++ t) = byteSum s + byteSum t := by
  simp [byteSum]

@[simp] theorem sum8_toNat (s : List Byte) : (sum8 s).toNat = byteSum s % 256 := by
  simp [sum8]

/-- The sum can be formed one byte at a time from the left, which is what `ACC` does (R96 a). -/
theorem sum8_snoc (s : List Byte) (b : Byte) : sum8 (s ++ [b]) = sum8 s + b := by
  apply BitVec.eq_of_toNat_eq
  simp [Nat.add_mod]

/-- Every digit is one of `0123456789ABCDEF` (R65). -/
theorem hexDigit_mem (n : BitVec 4) : hexDigit n ∈ hexCodes := by
  revert n; decide

theorem hex2_mem {b c : Byte} (h : c ∈ hex2 b) : c ∈ hexCodes := by
  simp only [hex2, List.mem_cons, List.not_mem_nil, or_false] at h
  rcases h with rfl | rfl <;> exact hexDigit_mem _

theorem hexPairs_mem {s : List Byte} {c : Byte} (h : c ∈ hexPairs s) : c ∈ hexCodes := by
  obtain ⟨b, _, hb⟩ := List.mem_flatMap.1 h
  exact hex2_mem hb

theorem hexCodes_subset_outputCodes {c : Byte} (h : c ∈ hexCodes) : c ∈ outputCodes := by
  revert c; decide

theorem colon_mem_outputCodes : colon ∈ outputCodes := by decide

theorem eol_mem {e : BitVec 1} {c : Byte} (h : c ∈ eol e) : c ∈ outputCodes := by
  unfold eol at h
  split at h <;> revert c <;> decide

/-- The characters of a record (R64). -/
theorem formatRecord_mem {count type : Byte} {addr : BitVec 16} {data : List Byte} {e : BitVec 1} {c : Byte}
    (h : c ∈ formatRecord count addr type data e) : c ∈ outputCodes := by
  simp only [formatRecord, line, List.cons_append, List.mem_cons, List.mem_append] at h
  rcases h with rfl | (h | h) | h
  · exact colon_mem_outputCodes
  · exact hexCodes_subset_outputCodes (hexPairs_mem h)
  · exact hexCodes_subset_outputCodes (hex2_mem h)
  · exact eol_mem h

end Sys2Proof.Machine
end

