-- ==== Sys2Proof/Laws/State.lean ====
section
/-! SUPPORT. One lemma per field per update of the state: an update gives its field its value and leaves every other
field. -/

namespace Sys2Proof.Machine

variable (s : State)

@[simp] theorem State.setAcc_acc (v : BitVec 8) : (s.setAcc v).acc = v := rfl
@[simp] theorem State.setAcc_phase (v : BitVec 8) : (s.setAcc v).phase = s.phase := rfl
@[simp] theorem State.setAcc_rem (v : BitVec 8) : (s.setAcc v).rem = s.rem := rfl
@[simp] theorem State.setAcc_seqState (v : BitVec 8) : (s.setAcc v).seqState = s.seqState := rfl
@[simp] theorem State.setAcc_curAddr (v : BitVec 8) : (s.setAcc v).curAddr = s.curAddr := rfl
@[simp] theorem State.setAcc_segCnt (v : BitVec 8) : (s.setAcc v).segCnt = s.segCnt := rfl
@[simp] theorem State.setAcc_err (v : BitVec 8) : (s.setAcc v).err = s.err := rfl
@[simp] theorem State.setAcc_cfg (v : BitVec 8) : (s.setAcc v).cfg = s.cfg := rfl
@[simp] theorem State.setAcc_out (v : BitVec 8) : (s.setAcc v).out = s.out := rfl
@[simp] theorem State.setAcc_rsps (v : BitVec 8) : (s.setAcc v).rsps = s.rsps := rfl
@[simp] theorem State.setAcc_inp (v : BitVec 8) : (s.setAcc v).inp = s.inp := rfl
@[simp] theorem State.setAcc_streams (v : BitVec 8) : (s.setAcc v).streams = s.streams := rfl
@[simp] theorem State.setAcc_cmds (v : BitVec 8) : (s.setAcc v).cmds = s.cmds := rfl
@[simp] theorem State.setAcc_turn (v : BitVec 8) : (s.setAcc v).turn = s.turn := rfl
@[simp] theorem State.setAcc_ticks (v : BitVec 8) : (s.setAcc v).ticks = s.ticks := rfl

@[simp] theorem State.setPhase_acc (v : Phase) : (s.setPhase v).acc = s.acc := rfl
@[simp] theorem State.setPhase_phase (v : Phase) : (s.setPhase v).phase = v := rfl
@[simp] theorem State.setPhase_rem (v : Phase) : (s.setPhase v).rem = s.rem := rfl
@[simp] theorem State.setPhase_seqState (v : Phase) : (s.setPhase v).seqState = s.seqState := rfl
@[simp] theorem State.setPhase_curAddr (v : Phase) : (s.setPhase v).curAddr = s.curAddr := rfl
@[simp] theorem State.setPhase_segCnt (v : Phase) : (s.setPhase v).segCnt = s.segCnt := rfl
@[simp] theorem State.setPhase_err (v : Phase) : (s.setPhase v).err = s.err := rfl
@[simp] theorem State.setPhase_cfg (v : Phase) : (s.setPhase v).cfg = s.cfg := rfl
@[simp] theorem State.setPhase_out (v : Phase) : (s.setPhase v).out = s.out := rfl
@[simp] theorem State.setPhase_rsps (v : Phase) : (s.setPhase v).rsps = s.rsps := rfl
@[simp] theorem State.setPhase_inp (v : Phase) : (s.setPhase v).inp = s.inp := rfl
@[simp] theorem State.setPhase_streams (v : Phase) : (s.setPhase v).streams = s.streams := rfl
@[simp] theorem State.setPhase_cmds (v : Phase) : (s.setPhase v).cmds = s.cmds := rfl
@[simp] theorem State.setPhase_turn (v : Phase) : (s.setPhase v).turn = s.turn := rfl
@[simp] theorem State.setPhase_ticks (v : Phase) : (s.setPhase v).ticks = s.ticks := rfl

@[simp] theorem State.setRem_acc (v : BitVec 8) : (s.setRem v).acc = s.acc := rfl
@[simp] theorem State.setRem_phase (v : BitVec 8) : (s.setRem v).phase = s.phase := rfl
@[simp] theorem State.setRem_rem (v : BitVec 8) : (s.setRem v).rem = v := rfl
@[simp] theorem State.setRem_seqState (v : BitVec 8) : (s.setRem v).seqState = s.seqState := rfl
@[simp] theorem State.setRem_curAddr (v : BitVec 8) : (s.setRem v).curAddr = s.curAddr := rfl
@[simp] theorem State.setRem_segCnt (v : BitVec 8) : (s.setRem v).segCnt = s.segCnt := rfl
@[simp] theorem State.setRem_err (v : BitVec 8) : (s.setRem v).err = s.err := rfl
@[simp] theorem State.setRem_cfg (v : BitVec 8) : (s.setRem v).cfg = s.cfg := rfl
@[simp] theorem State.setRem_out (v : BitVec 8) : (s.setRem v).out = s.out := rfl
@[simp] theorem State.setRem_rsps (v : BitVec 8) : (s.setRem v).rsps = s.rsps := rfl
@[simp] theorem State.setRem_inp (v : BitVec 8) : (s.setRem v).inp = s.inp := rfl
@[simp] theorem State.setRem_streams (v : BitVec 8) : (s.setRem v).streams = s.streams := rfl
@[simp] theorem State.setRem_cmds (v : BitVec 8) : (s.setRem v).cmds = s.cmds := rfl
@[simp] theorem State.setRem_turn (v : BitVec 8) : (s.setRem v).turn = s.turn := rfl
@[simp] theorem State.setRem_ticks (v : BitVec 8) : (s.setRem v).ticks = s.ticks := rfl

@[simp] theorem State.setSeqState_acc (v : SeqState) : (s.setSeqState v).acc = s.acc := rfl
@[simp] theorem State.setSeqState_phase (v : SeqState) : (s.setSeqState v).phase = s.phase := rfl
@[simp] theorem State.setSeqState_rem (v : SeqState) : (s.setSeqState v).rem = s.rem := rfl
@[simp] theorem State.setSeqState_seqState (v : SeqState) : (s.setSeqState v).seqState = v := rfl
@[simp] theorem State.setSeqState_curAddr (v : SeqState) : (s.setSeqState v).curAddr = s.curAddr := rfl
@[simp] theorem State.setSeqState_segCnt (v : SeqState) : (s.setSeqState v).segCnt = s.segCnt := rfl
@[simp] theorem State.setSeqState_err (v : SeqState) : (s.setSeqState v).err = s.err := rfl
@[simp] theorem State.setSeqState_cfg (v : SeqState) : (s.setSeqState v).cfg = s.cfg := rfl
@[simp] theorem State.setSeqState_out (v : SeqState) : (s.setSeqState v).out = s.out := rfl
@[simp] theorem State.setSeqState_rsps (v : SeqState) : (s.setSeqState v).rsps = s.rsps := rfl
@[simp] theorem State.setSeqState_inp (v : SeqState) : (s.setSeqState v).inp = s.inp := rfl
@[simp] theorem State.setSeqState_streams (v : SeqState) : (s.setSeqState v).streams = s.streams := rfl
@[simp] theorem State.setSeqState_cmds (v : SeqState) : (s.setSeqState v).cmds = s.cmds := rfl
@[simp] theorem State.setSeqState_turn (v : SeqState) : (s.setSeqState v).turn = s.turn := rfl
@[simp] theorem State.setSeqState_ticks (v : SeqState) : (s.setSeqState v).ticks = s.ticks := rfl

@[simp] theorem State.setCurAddr_acc (v : BitVec 17) : (s.setCurAddr v).acc = s.acc := rfl
@[simp] theorem State.setCurAddr_phase (v : BitVec 17) : (s.setCurAddr v).phase = s.phase := rfl
@[simp] theorem State.setCurAddr_rem (v : BitVec 17) : (s.setCurAddr v).rem = s.rem := rfl
@[simp] theorem State.setCurAddr_seqState (v : BitVec 17) : (s.setCurAddr v).seqState = s.seqState := rfl
@[simp] theorem State.setCurAddr_curAddr (v : BitVec 17) : (s.setCurAddr v).curAddr = v := rfl
@[simp] theorem State.setCurAddr_segCnt (v : BitVec 17) : (s.setCurAddr v).segCnt = s.segCnt := rfl
@[simp] theorem State.setCurAddr_err (v : BitVec 17) : (s.setCurAddr v).err = s.err := rfl
@[simp] theorem State.setCurAddr_cfg (v : BitVec 17) : (s.setCurAddr v).cfg = s.cfg := rfl
@[simp] theorem State.setCurAddr_out (v : BitVec 17) : (s.setCurAddr v).out = s.out := rfl
@[simp] theorem State.setCurAddr_rsps (v : BitVec 17) : (s.setCurAddr v).rsps = s.rsps := rfl
@[simp] theorem State.setCurAddr_inp (v : BitVec 17) : (s.setCurAddr v).inp = s.inp := rfl
@[simp] theorem State.setCurAddr_streams (v : BitVec 17) : (s.setCurAddr v).streams = s.streams := rfl
@[simp] theorem State.setCurAddr_cmds (v : BitVec 17) : (s.setCurAddr v).cmds = s.cmds := rfl
@[simp] theorem State.setCurAddr_turn (v : BitVec 17) : (s.setCurAddr v).turn = s.turn := rfl
@[simp] theorem State.setCurAddr_ticks (v : BitVec 17) : (s.setCurAddr v).ticks = s.ticks := rfl

@[simp] theorem State.setSegCnt_acc (v : BitVec 16) : (s.setSegCnt v).acc = s.acc := rfl
@[simp] theorem State.setSegCnt_phase (v : BitVec 16) : (s.setSegCnt v).phase = s.phase := rfl
@[simp] theorem State.setSegCnt_rem (v : BitVec 16) : (s.setSegCnt v).rem = s.rem := rfl
@[simp] theorem State.setSegCnt_seqState (v : BitVec 16) : (s.setSegCnt v).seqState = s.seqState := rfl
@[simp] theorem State.setSegCnt_curAddr (v : BitVec 16) : (s.setSegCnt v).curAddr = s.curAddr := rfl
@[simp] theorem State.setSegCnt_segCnt (v : BitVec 16) : (s.setSegCnt v).segCnt = v := rfl
@[simp] theorem State.setSegCnt_err (v : BitVec 16) : (s.setSegCnt v).err = s.err := rfl
@[simp] theorem State.setSegCnt_cfg (v : BitVec 16) : (s.setSegCnt v).cfg = s.cfg := rfl
@[simp] theorem State.setSegCnt_out (v : BitVec 16) : (s.setSegCnt v).out = s.out := rfl
@[simp] theorem State.setSegCnt_rsps (v : BitVec 16) : (s.setSegCnt v).rsps = s.rsps := rfl
@[simp] theorem State.setSegCnt_inp (v : BitVec 16) : (s.setSegCnt v).inp = s.inp := rfl
@[simp] theorem State.setSegCnt_streams (v : BitVec 16) : (s.setSegCnt v).streams = s.streams := rfl
@[simp] theorem State.setSegCnt_cmds (v : BitVec 16) : (s.setSegCnt v).cmds = s.cmds := rfl
@[simp] theorem State.setSegCnt_turn (v : BitVec 16) : (s.setSegCnt v).turn = s.turn := rfl
@[simp] theorem State.setSegCnt_ticks (v : BitVec 16) : (s.setSegCnt v).ticks = s.ticks := rfl

@[simp] theorem State.setErr_acc (v : ErrorKind) : (s.setErr v).acc = s.acc := rfl
@[simp] theorem State.setErr_phase (v : ErrorKind) : (s.setErr v).phase = s.phase := rfl
@[simp] theorem State.setErr_rem (v : ErrorKind) : (s.setErr v).rem = s.rem := rfl
@[simp] theorem State.setErr_seqState (v : ErrorKind) : (s.setErr v).seqState = s.seqState := rfl
@[simp] theorem State.setErr_curAddr (v : ErrorKind) : (s.setErr v).curAddr = s.curAddr := rfl
@[simp] theorem State.setErr_segCnt (v : ErrorKind) : (s.setErr v).segCnt = s.segCnt := rfl
@[simp] theorem State.setErr_err (v : ErrorKind) : (s.setErr v).err = v := rfl
@[simp] theorem State.setErr_cfg (v : ErrorKind) : (s.setErr v).cfg = s.cfg := rfl
@[simp] theorem State.setErr_out (v : ErrorKind) : (s.setErr v).out = s.out := rfl
@[simp] theorem State.setErr_rsps (v : ErrorKind) : (s.setErr v).rsps = s.rsps := rfl
@[simp] theorem State.setErr_inp (v : ErrorKind) : (s.setErr v).inp = s.inp := rfl
@[simp] theorem State.setErr_streams (v : ErrorKind) : (s.setErr v).streams = s.streams := rfl
@[simp] theorem State.setErr_cmds (v : ErrorKind) : (s.setErr v).cmds = s.cmds := rfl
@[simp] theorem State.setErr_turn (v : ErrorKind) : (s.setErr v).turn = s.turn := rfl
@[simp] theorem State.setErr_ticks (v : ErrorKind) : (s.setErr v).ticks = s.ticks := rfl

@[simp] theorem State.setCfg_acc (v : Cfg) : (s.setCfg v).acc = s.acc := rfl
@[simp] theorem State.setCfg_phase (v : Cfg) : (s.setCfg v).phase = s.phase := rfl
@[simp] theorem State.setCfg_rem (v : Cfg) : (s.setCfg v).rem = s.rem := rfl
@[simp] theorem State.setCfg_seqState (v : Cfg) : (s.setCfg v).seqState = s.seqState := rfl
@[simp] theorem State.setCfg_curAddr (v : Cfg) : (s.setCfg v).curAddr = s.curAddr := rfl
@[simp] theorem State.setCfg_segCnt (v : Cfg) : (s.setCfg v).segCnt = s.segCnt := rfl
@[simp] theorem State.setCfg_err (v : Cfg) : (s.setCfg v).err = s.err := rfl
@[simp] theorem State.setCfg_cfg (v : Cfg) : (s.setCfg v).cfg = v := rfl
@[simp] theorem State.setCfg_out (v : Cfg) : (s.setCfg v).out = s.out := rfl
@[simp] theorem State.setCfg_rsps (v : Cfg) : (s.setCfg v).rsps = s.rsps := rfl
@[simp] theorem State.setCfg_inp (v : Cfg) : (s.setCfg v).inp = s.inp := rfl
@[simp] theorem State.setCfg_streams (v : Cfg) : (s.setCfg v).streams = s.streams := rfl
@[simp] theorem State.setCfg_cmds (v : Cfg) : (s.setCfg v).cmds = s.cmds := rfl
@[simp] theorem State.setCfg_turn (v : Cfg) : (s.setCfg v).turn = s.turn := rfl
@[simp] theorem State.setCfg_ticks (v : Cfg) : (s.setCfg v).ticks = s.ticks := rfl

@[simp] theorem State.setInp_acc (v : Input) : (s.setInp v).acc = s.acc := rfl
@[simp] theorem State.setInp_phase (v : Input) : (s.setInp v).phase = s.phase := rfl
@[simp] theorem State.setInp_rem (v : Input) : (s.setInp v).rem = s.rem := rfl
@[simp] theorem State.setInp_seqState (v : Input) : (s.setInp v).seqState = s.seqState := rfl
@[simp] theorem State.setInp_curAddr (v : Input) : (s.setInp v).curAddr = s.curAddr := rfl
@[simp] theorem State.setInp_segCnt (v : Input) : (s.setInp v).segCnt = s.segCnt := rfl
@[simp] theorem State.setInp_err (v : Input) : (s.setInp v).err = s.err := rfl
@[simp] theorem State.setInp_cfg (v : Input) : (s.setInp v).cfg = s.cfg := rfl
@[simp] theorem State.setInp_out (v : Input) : (s.setInp v).out = s.out := rfl
@[simp] theorem State.setInp_rsps (v : Input) : (s.setInp v).rsps = s.rsps := rfl
@[simp] theorem State.setInp_inp (v : Input) : (s.setInp v).inp = v := rfl
@[simp] theorem State.setInp_streams (v : Input) : (s.setInp v).streams = s.streams := rfl
@[simp] theorem State.setInp_cmds (v : Input) : (s.setInp v).cmds = s.cmds := rfl
@[simp] theorem State.setInp_turn (v : Input) : (s.setInp v).turn = s.turn := rfl
@[simp] theorem State.setInp_ticks (v : Input) : (s.setInp v).ticks = s.ticks := rfl

@[simp] theorem State.setStreams_acc (v : List Input) : (s.setStreams v).acc = s.acc := rfl
@[simp] theorem State.setStreams_phase (v : List Input) : (s.setStreams v).phase = s.phase := rfl
@[simp] theorem State.setStreams_rem (v : List Input) : (s.setStreams v).rem = s.rem := rfl
@[simp] theorem State.setStreams_seqState (v : List Input) : (s.setStreams v).seqState = s.seqState := rfl
@[simp] theorem State.setStreams_curAddr (v : List Input) : (s.setStreams v).curAddr = s.curAddr := rfl
@[simp] theorem State.setStreams_segCnt (v : List Input) : (s.setStreams v).segCnt = s.segCnt := rfl
@[simp] theorem State.setStreams_err (v : List Input) : (s.setStreams v).err = s.err := rfl
@[simp] theorem State.setStreams_cfg (v : List Input) : (s.setStreams v).cfg = s.cfg := rfl
@[simp] theorem State.setStreams_out (v : List Input) : (s.setStreams v).out = s.out := rfl
@[simp] theorem State.setStreams_rsps (v : List Input) : (s.setStreams v).rsps = s.rsps := rfl
@[simp] theorem State.setStreams_inp (v : List Input) : (s.setStreams v).inp = s.inp := rfl
@[simp] theorem State.setStreams_streams (v : List Input) : (s.setStreams v).streams = v := rfl
@[simp] theorem State.setStreams_cmds (v : List Input) : (s.setStreams v).cmds = s.cmds := rfl
@[simp] theorem State.setStreams_turn (v : List Input) : (s.setStreams v).turn = s.turn := rfl
@[simp] theorem State.setStreams_ticks (v : List Input) : (s.setStreams v).ticks = s.ticks := rfl

@[simp] theorem State.emitAll_acc (v : List Byte) : (s.emitAll v).acc = s.acc := rfl
@[simp] theorem State.emitAll_phase (v : List Byte) : (s.emitAll v).phase = s.phase := rfl
@[simp] theorem State.emitAll_rem (v : List Byte) : (s.emitAll v).rem = s.rem := rfl
@[simp] theorem State.emitAll_seqState (v : List Byte) : (s.emitAll v).seqState = s.seqState := rfl
@[simp] theorem State.emitAll_curAddr (v : List Byte) : (s.emitAll v).curAddr = s.curAddr := rfl
@[simp] theorem State.emitAll_segCnt (v : List Byte) : (s.emitAll v).segCnt = s.segCnt := rfl
@[simp] theorem State.emitAll_err (v : List Byte) : (s.emitAll v).err = s.err := rfl
@[simp] theorem State.emitAll_cfg (v : List Byte) : (s.emitAll v).cfg = s.cfg := rfl
@[simp] theorem State.emitAll_out (v : List Byte) : (s.emitAll v).out = s.out ++ v := rfl
@[simp] theorem State.emitAll_rsps (v : List Byte) : (s.emitAll v).rsps = s.rsps := rfl
@[simp] theorem State.emitAll_inp (v : List Byte) : (s.emitAll v).inp = s.inp := rfl
@[simp] theorem State.emitAll_streams (v : List Byte) : (s.emitAll v).streams = s.streams := rfl
@[simp] theorem State.emitAll_cmds (v : List Byte) : (s.emitAll v).cmds = s.cmds := rfl
@[simp] theorem State.emitAll_turn (v : List Byte) : (s.emitAll v).turn = s.turn := rfl
@[simp] theorem State.emitAll_ticks (v : List Byte) : (s.emitAll v).ticks = s.ticks := rfl

@[simp] theorem State.respond_acc (code : RspCode) (data : Byte) : (s.respond code data).acc = s.acc := rfl
@[simp] theorem State.respond_phase (code : RspCode) (data : Byte) : (s.respond code data).phase = s.phase := rfl
@[simp] theorem State.respond_rem (code : RspCode) (data : Byte) : (s.respond code data).rem = s.rem := rfl
@[simp] theorem State.respond_seqState (code : RspCode) (data : Byte) : (s.respond code data).seqState = s.seqState := rfl
@[simp] theorem State.respond_curAddr (code : RspCode) (data : Byte) : (s.respond code data).curAddr = s.curAddr := rfl
@[simp] theorem State.respond_segCnt (code : RspCode) (data : Byte) : (s.respond code data).segCnt = s.segCnt := rfl
@[simp] theorem State.respond_err (code : RspCode) (data : Byte) : (s.respond code data).err = s.err := rfl
@[simp] theorem State.respond_cfg (code : RspCode) (data : Byte) : (s.respond code data).cfg = s.cfg := rfl
@[simp] theorem State.respond_out (code : RspCode) (data : Byte) : (s.respond code data).out = s.out := rfl
@[simp] theorem State.respond_rsps (code : RspCode) (data : Byte) : (s.respond code data).rsps = s.rsps ++ [responseWord code data] := rfl
@[simp] theorem State.respond_inp (code : RspCode) (data : Byte) : (s.respond code data).inp = s.inp := rfl
@[simp] theorem State.respond_streams (code : RspCode) (data : Byte) : (s.respond code data).streams = s.streams := rfl
@[simp] theorem State.respond_cmds (code : RspCode) (data : Byte) : (s.respond code data).cmds = s.cmds := rfl
@[simp] theorem State.respond_turn (code : RspCode) (data : Byte) : (s.respond code data).turn = s.turn := rfl
@[simp] theorem State.respond_ticks (code : RspCode) (data : Byte) : (s.respond code data).ticks = s.ticks := rfl

@[simp] theorem State.refuse_acc (code : RspCode) : (s.refuse code).acc = s.acc := rfl
@[simp] theorem State.refuse_phase (code : RspCode) : (s.refuse code).phase = s.phase := rfl
@[simp] theorem State.refuse_rem (code : RspCode) : (s.refuse code).rem = s.rem := rfl
@[simp] theorem State.refuse_seqState (code : RspCode) : (s.refuse code).seqState = s.seqState := rfl
@[simp] theorem State.refuse_curAddr (code : RspCode) : (s.refuse code).curAddr = s.curAddr := rfl
@[simp] theorem State.refuse_segCnt (code : RspCode) : (s.refuse code).segCnt = s.segCnt := rfl
@[simp] theorem State.refuse_err (code : RspCode) : (s.refuse code).err = s.err := rfl
@[simp] theorem State.refuse_cfg (code : RspCode) : (s.refuse code).cfg = s.cfg := rfl
@[simp] theorem State.refuse_out (code : RspCode) : (s.refuse code).out = s.out := rfl
@[simp] theorem State.refuse_rsps (code : RspCode) : (s.refuse code).rsps = s.rsps ++ [responseWord code 0x00] := rfl
@[simp] theorem State.refuse_inp (code : RspCode) : (s.refuse code).inp = s.inp := rfl
@[simp] theorem State.refuse_streams (code : RspCode) : (s.refuse code).streams = s.streams := rfl
@[simp] theorem State.refuse_cmds (code : RspCode) : (s.refuse code).cmds = s.cmds := rfl
@[simp] theorem State.refuse_turn (code : RspCode) : (s.refuse code).turn = s.turn := rfl
@[simp] theorem State.refuse_ticks (code : RspCode) : (s.refuse code).ticks = s.ticks := rfl

@[simp] theorem State.nextTurn_acc : s.nextTurn.acc = s.acc := rfl
@[simp] theorem State.nextTurn_phase : s.nextTurn.phase = s.phase := rfl
@[simp] theorem State.nextTurn_rem : s.nextTurn.rem = s.rem := rfl
@[simp] theorem State.nextTurn_seqState : s.nextTurn.seqState = s.seqState := rfl
@[simp] theorem State.nextTurn_curAddr : s.nextTurn.curAddr = s.curAddr := rfl
@[simp] theorem State.nextTurn_segCnt : s.nextTurn.segCnt = s.segCnt := rfl
@[simp] theorem State.nextTurn_err : s.nextTurn.err = s.err := rfl
@[simp] theorem State.nextTurn_cfg : s.nextTurn.cfg = s.cfg := rfl
@[simp] theorem State.nextTurn_out : s.nextTurn.out = s.out := rfl
@[simp] theorem State.nextTurn_rsps : s.nextTurn.rsps = s.rsps := rfl
@[simp] theorem State.nextTurn_inp : s.nextTurn.inp = s.inp := rfl
@[simp] theorem State.nextTurn_streams : s.nextTurn.streams = s.streams := rfl
@[simp] theorem State.nextTurn_cmds : s.nextTurn.cmds = s.cmds := rfl
@[simp] theorem State.nextTurn_turn : s.nextTurn.turn = Config.freeTurn s.ticks := rfl
@[simp] theorem State.nextTurn_ticks : s.nextTurn.ticks = s.ticks + 1 := rfl

@[simp] theorem State.dropCommand_acc : s.dropCommand.acc = s.acc := rfl
@[simp] theorem State.dropCommand_phase : s.dropCommand.phase = s.phase := rfl
@[simp] theorem State.dropCommand_rem : s.dropCommand.rem = s.rem := rfl
@[simp] theorem State.dropCommand_seqState : s.dropCommand.seqState = s.seqState := rfl
@[simp] theorem State.dropCommand_curAddr : s.dropCommand.curAddr = s.curAddr := rfl
@[simp] theorem State.dropCommand_segCnt : s.dropCommand.segCnt = s.segCnt := rfl
@[simp] theorem State.dropCommand_err : s.dropCommand.err = s.err := rfl
@[simp] theorem State.dropCommand_cfg : s.dropCommand.cfg = s.cfg := rfl
@[simp] theorem State.dropCommand_out : s.dropCommand.out = s.out := rfl
@[simp] theorem State.dropCommand_rsps : s.dropCommand.rsps = s.rsps := rfl
@[simp] theorem State.dropCommand_inp : s.dropCommand.inp = s.inp := rfl
@[simp] theorem State.dropCommand_streams : s.dropCommand.streams = s.streams := rfl
@[simp] theorem State.dropCommand_cmds : s.dropCommand.cmds = s.cmds.tail := rfl
@[simp] theorem State.dropCommand_turn : s.dropCommand.turn = s.turn := rfl
@[simp] theorem State.dropCommand_ticks : s.dropCommand.ticks = s.ticks := rfl

@[simp] theorem State.resetRegisters_acc : s.resetRegisters.acc = State.reset.acc := rfl
@[simp] theorem State.resetRegisters_phase : s.resetRegisters.phase = State.reset.phase := rfl
@[simp] theorem State.resetRegisters_rem : s.resetRegisters.rem = State.reset.rem := rfl
@[simp] theorem State.resetRegisters_seqState : s.resetRegisters.seqState = State.reset.seqState := rfl
@[simp] theorem State.resetRegisters_curAddr : s.resetRegisters.curAddr = State.reset.curAddr := rfl
@[simp] theorem State.resetRegisters_segCnt : s.resetRegisters.segCnt = State.reset.segCnt := rfl
@[simp] theorem State.resetRegisters_err : s.resetRegisters.err = State.reset.err := rfl
@[simp] theorem State.resetRegisters_cfg : s.resetRegisters.cfg = State.reset.cfg := rfl
@[simp] theorem State.resetRegisters_out : s.resetRegisters.out = s.out := rfl
@[simp] theorem State.resetRegisters_rsps : s.resetRegisters.rsps = s.rsps := rfl
@[simp] theorem State.resetRegisters_inp : s.resetRegisters.inp = s.inp := rfl
@[simp] theorem State.resetRegisters_streams : s.resetRegisters.streams = s.streams := rfl
@[simp] theorem State.resetRegisters_cmds : s.resetRegisters.cmds = s.cmds := rfl
@[simp] theorem State.resetRegisters_turn : s.resetRegisters.turn = s.turn := rfl
@[simp] theorem State.resetRegisters_ticks : s.resetRegisters.ticks = s.ticks := rfl

end Sys2Proof.Machine
end

