-- ==== Sys2Proof/Laws/Ops.lean ====
section
/-! SUPPORT. What each shared operation of Machine/Ops.lean and Machine/Fetch.lean can do, said once. -/

namespace Sys2Proof.Machine

variable {s t : State}

/-- The admission tests have three outcomes (R168). -/
theorem State.admission_cases (s : State) (need : Phase) :
    (s.seqBusy = true ∧ s.admission need = some .busy) ∨
    (s.seqBusy = false ∧ s.phase ≠ need ∧ s.admission need = some .badPhase) ∨
    (s.seqBusy = false ∧ s.phase = need ∧ s.admission need = none) := by
  unfold State.admission
  cases s.seqBusy <;> by_cases h : s.phase = need <;> simp [h]

/-- A command during a run (R134). -/
theorem State.ifAdmitted_busy {need : Phase} {accepted : State} (h : s.seqBusy = true) :
    s.ifAdmitted need accepted = .next (s.refuse .busy) := by
  simp [State.ifAdmitted, State.admission, h]

/-- A command in the wrong phase (R166). -/
theorem State.ifAdmitted_badPhase {need : Phase} {accepted : State} (h : s.seqBusy = false) (hp : s.phase ≠ need) :
    s.ifAdmitted need accepted = .next (s.refuse .badPhase) := by
  simp [State.ifAdmitted, State.admission, h, hp]

/-- An admitted command (R166). -/
theorem State.ifAdmitted_accepted {need : Phase} {accepted : State} (h : s.seqBusy = false) (hp : s.phase = need) :
    s.ifAdmitted need accepted = .next accepted := by
  simp [State.ifAdmitted, State.admission, h, hp]

/-- Everything `ifAdmitted` can answer. -/
theorem State.ifAdmitted_cases {need : Phase} {accepted : State} (h : s.ifAdmitted need accepted = .next t) :
    (∃ code, t = s.refuse code) ∨ (s.seqBusy = false ∧ s.phase = need ∧ t = accepted) := by
  obtain ⟨_, ha⟩ | ⟨_, _, ha⟩ | ⟨hb, hp, ha⟩ := s.admission_cases need <;>
    simp only [State.ifAdmitted, ha, Host.Outcome.next.injEq] at h
  · exact .inl ⟨_, h.symm⟩
  · exact .inl ⟨_, h.symm⟩
  · exact .inr ⟨hb, hp, h.symm⟩

/-- Everything `ifEnabled` can answer as a next state. -/
theorem State.ifEnabled_cases {need : SeqState} {taken : Result} (h : s.ifEnabled need taken = .next t) :
    s.seqState = need ∧ taken = .next t := by
  unfold State.ifEnabled at h
  split at h
  · exact ⟨‹_›, h⟩
  · cases h

/-- A step in the state that enables it. -/
theorem State.ifEnabled_enabled {need : SeqState} {taken : Result} (h : s.seqState = need) :
    s.ifEnabled need taken = taken := by
  simp [State.ifEnabled, h]

/-- A step in another state. -/
theorem State.ifEnabled_disabled {need : SeqState} {taken : Result} (h : s.seqState ≠ need) :
    s.ifEnabled need taken = .refused .stepNotEnabled := by
  simp [State.ifEnabled, h]

/-- Trap entry writes `ERR` and `STATE` only (R170). -/
theorem State.raiseError_eq (s : State) (e : ErrorKind) :
    s.raiseError e = { s with err := e, seqState := .aborted } := rfl

/-- Closing a record (R112, R113). -/
theorem State.closeRecord_eq (s : State) :
    s.closeRecord =
      { s with out := s.out ++ (hex2 (neg8 s.acc) ++ eol s.cfg.eol), rem := 0, phase := .idle } := rfl

/-- The two outcomes of an accepted header (R112). -/
theorem State.openRecord_cases (s : State) (count : Byte) (addr : BitVec 16) (type : Byte) :
    (count = 0 ∧ s.openRecord count addr type =
      ((s.setAcc (sum8 (headerBytes count addr type))).emitAll
        (colon :: hexPairs (headerBytes count addr type))).closeRecord) ∨
    (count ≠ 0 ∧ s.openRecord count addr type =
      ((((s.setAcc (sum8 (headerBytes count addr type))).emitAll
        (colon :: hexPairs (headerBytes count addr type))).setRem count).setPhase .data)) := by
  by_cases h : count = 0
  · exact .inl ⟨h, if_pos h⟩
  · exact .inr ⟨h, if_neg h⟩

/-- The two outcomes of an accepted data byte (R113). -/
theorem State.takeDataByte_cases (s : State) (b : Byte) :
    (s.rem = 1 ∧ s.takeDataByte b =
      (((s.setAcc (s.acc + b)).setRem 0).emitAll (hex2 b)).closeRecord) ∨
    (s.rem ≠ 1 ∧ s.takeDataByte b =
      ((s.setAcc (s.acc + b)).setRem (s.rem - 1)).emitAll (hex2 b)) := by
  by_cases h : s.rem = 1
  · exact .inl ⟨h, by simp [State.takeDataByte, h]⟩
  · have hz : ¬ s.rem - 1 = 0 := by
      rw [BitVec.sub_eq_iff_eq_add]
      simpa using h
    exact .inr ⟨h, if_neg hz⟩

/-- `EmitRecord` writes `ACC` and appends to `OUT` only (R118). -/
theorem State.emitRecord_eq (s : State) (count : Byte) (addr : BitVec 16) (type : Byte) (data : List Byte) :
    s.emitRecord count addr type data =
      { s with
        acc := sum8 (recordBytes count addr type data)
        out := s.out ++ formatRecord count addr type data s.cfg.eol } := rfl

/-- What an accepted `SEQ.RUN` leaves (R135). -/
theorem State.startRun_eq (s : State) :
    s.startRun =
      { s with
        inp := s.nextInput, streams := s.streams.tail
        curAddr := s.cfg.initAddr.setWidth 17, segCnt := 0
        err := if s.nextInput.avail then .none else .inputUnavailable
        seqState := if s.nextInput.avail then .start else .aborted } := by
  unfold State.startRun
  cases s.nextInput.avail <;> rfl

/-- A bound stream has its cursor at 0 (R42). -/
theorem State.nextInput_pos (s : State) : s.nextInput.pos = 0 := by
  unfold State.nextInput
  split <;> rfl

/-- A read changes only the cursor, which stays within the data (R43). -/
theorem streamRead_rest (n : Nat) (i : Input) :
    (streamRead n i).rest.avail = i.avail ∧ (streamRead n i).rest.data = i.data ∧
    (streamRead n i).rest.ending = i.ending ∧
    (i.pos ≤ i.data.length → (streamRead n i).rest.pos ≤ i.data.length) := by
  unfold streamRead
  dsimp only
  split
  · refine ⟨rfl, rfl, rfl, fun h => ?_⟩
    dsimp only; omega
  · split <;> (refine ⟨rfl, rfl, rfl, fun h => ?_⟩; dsimp only; omega)

/-- The length of what a read delivers (R43). -/
theorem streamRead_buf_length_le (n : Nat) (i : Input) : (streamRead n i).buf.length ≤ n := by
  unfold streamRead
  dsimp only
  split
  · simp
  · split <;> simp

/-- The four outcomes of the step `STREAMING` (R138). -/
theorem State.streamingStep_cases (s : State) (p : Params) :
    let a := streamRead p.chunk s.inp
    (a.status = .fail ∧ s.streamingStep p = (s.setInp a.rest).raiseError .readFailure) ∨
    (a.status = .short ∧ a.buf = [] ∧ s.streamingStep p = (s.setInp a.rest).setSeqState .done) ∨
    (a.status = .short ∧ a.buf ≠ [] ∧
      s.streamingStep p = ((s.setInp a.rest).emitData a.buf).setSeqState .done) ∨
    (a.status = .full ∧ s.streamingStep p = ((s.setInp a.rest).emitData a.buf).advance p.chunk) := by
  intro a
  unfold State.streamingStep
  rcases h : a.status with _ | _ | _
  · exact .inr (.inr (.inr ⟨rfl, by simp only [a] at h; simp [h, a]⟩))
  · by_cases hb : a.buf = []
    · exact .inr (.inl ⟨rfl, hb, by simp only [a] at h hb; simp [h, hb, a]⟩)
    · exact .inr (.inr (.inl ⟨rfl, hb, by simp only [a] at h hb; simp [h, hb, a]⟩))
  · exact .inl ⟨rfl, by simp only [a] at h; simp [h, a]⟩

/-- The advance writes `CUR_ADDR` and `STATE` only (R138). -/
theorem State.advance_eq (s : State) (chunk : Nat) :
    s.advance chunk =
      { s with
        curAddr := s.curAddr + BitVec.ofNat 17 chunk
        seqState := if s.curAddr + BitVec.ofNat 17 chunk > addrMax then .segOverflow else .streaming } := by
  unfold State.advance
  by_cases h : s.curAddr + BitVec.ofNat 17 chunk > addrMax
  · rw [if_pos h]; exact if_pos h
  · rw [if_neg h]; exact if_neg h

/-- What comes next, when it is a command word (R19, R195). -/
theorem State.fetch_command {cw : CommandWord} {rest : List CommandWord} (hc : s.cmds = cw :: rest)
    (hw : s.seqBusy = false ∨ s.turn = .host) : s.fetch = (commandAction cw, s.dropCommand.nextTurn) := by
  unfold State.fetch
  unfold State.seqBusy at hw
  rw [hc]
  cases hq : s.seqState <;> simp_all [SeqState.enabledStep, SeqState.busy]

/-- What comes next, in all its cases. -/
theorem State.fetch_cases (s : State) :
    (s.seqBusy = false ∧ s.cmds = [] ∧ s.fetch = (.wait, s)) ∨
    (∃ cw rest, s.cmds = cw :: rest ∧ (s.seqBusy = false ∨ s.turn = .host) ∧
      s.fetch = (commandAction cw, s.dropCommand.nextTurn)) ∨
    (∃ i, s.seqState.enabledStep = some i ∧ (s.cmds = [] ∨ s.turn = .sequencer) ∧ s.fetch = (.run i, s.nextTurn)) := by
  unfold State.fetch State.seqBusy
  cases hq : s.seqState <;> cases hc : s.cmds <;> cases ht : s.turn <;>
    simp [SeqState.enabledStep, SeqState.busy]

end Sys2Proof.Machine
end

