-- ==== Sys2Proof/Laws/PerInstr.lean ====
section
/-! SUPPORT. Per-instruction laws of the encoding. `OpcodeOf`: the operation code of an instruction's word is the
one R76 assigns to it, and its `ARG` has no reserved bit of its format set (R77 to R79); a record row's byte
is the type of R70. -/

namespace Sys2Proof.Laws.OpcodeOf

/-- The format and the operation code of a command (R76), or the type byte of a record row (R70). -/
def Statement : Instr → Prop
  | .csumClr => HasOpcode .n 0x0 (encode .csumClr)
  | .csumAdd b => HasOpcode .b 0x1 (encode (.csumAdd b))
  | .csumRd => HasOpcode .n 0x2 (encode .csumRd)
  | .fmtHdr count addr type => HasOpcode .h 0x4 (encode (.fmtHdr count addr type))
  | .fmtDat b => HasOpcode .b 0x5 (encode (.fmtDat b))
  | .fmtEof => HasOpcode .n 0x6 (encode .fmtEof)
  | .seqCfg initAddr startEn eol => HasOpcode .c 0x8 (encode (.seqCfg initAddr startEn eol))
  | .seqRun => HasOpcode .n 0x9 (encode .seqRun)
  | .statRd => HasOpcode .n 0xC (encode .statRd)
  | .reset => HasOpcode .n 0xF (encode .reset)
  | .data => encode .data = .recordType 0x00
  | .endOfFile => encode .endOfFile = .recordType 0x01
  | .extendedSegmentAddress => encode .extendedSegmentAddress = .recordType 0x02
  | .startAddress => encode .startAddress = .recordType 0x04
where
  /-- A command word with this operation code and no reserved bit of this format set. -/
  HasOpcode (fmt : ArgFormat) (op : BitVec 4) (e : Encoding) : Prop :=
    ∃ cw, e = .command cw ∧ opField cw = op ∧ argField cw &&& reservedMask fmt = 0

theorem opField_commandWord (op : BitVec 4) (arg : BitVec 32) : opField (commandWord op arg) = op := by
  unfold opField commandWord
  ext i hi
  simp only [BitVec.getElem_extractLsb', BitVec.getLsbD_append]
  simp [BitVec.getLsbD_eq_getElem hi]

theorem argField_commandWord (op : BitVec 4) (arg : BitVec 32) : argField (commandWord op arg) = arg := by
  unfold argField commandWord
  ext i hi
  simp only [BitVec.getElem_extractLsb', BitVec.getLsbD_append]
  simp [hi]

/-- A word built from its operation code and its operand has both. -/
theorem hasOpcode_commandWord {fmt : ArgFormat} {op : BitVec 4} {arg : BitVec 32} (h : arg &&& reservedMask fmt = 0) :
    Statement.HasOpcode fmt op (.command (commandWord op arg)) :=
  ⟨_, rfl, opField_commandWord op arg, by rw [argField_commandWord]; exact h⟩

/-- A zero-extended byte has no bit above bit 7 (R77). -/
theorem byteArg_reserved (b : Byte) : b.setWidth 32 &&& reservedMask .b = 0 := by
  revert b; decide

/-- The operand of format C has no bit above bit 17 (R79). -/
theorem cfgArg_reserved (initAddr : BitVec 16) (startEn eol : BitVec 1) :
    ((0 : BitVec 14) ++ eol ++ startEn ++ initAddr) &&& reservedMask .c = 0 := by
  have h : reservedMask .c = (0x3FFF : BitVec 14) ++ (0 : BitVec 1) ++ (0 : BitVec 1) ++ (0 : BitVec 16) := by decide
  rw [h]
  apply BitVec.eq_of_getLsbD_eq
  intro i hi
  simp only [BitVec.getLsbD_and, BitVec.getLsbD_append]
  by_cases h16 : i < 16
  · simp [h16]
  by_cases h17 : i - 16 < 1
  · simp [h16, h17]
  by_cases h18 : i - 16 - 1 < 1
  · simp [h16, h17, h18]
  · simp [h16, h17, h18]

theorem csumClr : Statement .csumClr := hasOpcode_commandWord (by decide)
theorem csumAdd (b : Byte) : Statement (.csumAdd b) := hasOpcode_commandWord (byteArg_reserved b)
theorem csumRd : Statement .csumRd := hasOpcode_commandWord (by decide)
theorem fmtHdr (count : Byte) (addr : BitVec 16) (type : Byte) : Statement (.fmtHdr count addr type) :=
  hasOpcode_commandWord (by simp [reservedMask])
theorem fmtDat (b : Byte) : Statement (.fmtDat b) := hasOpcode_commandWord (byteArg_reserved b)
theorem fmtEof : Statement .fmtEof := hasOpcode_commandWord (by decide)
theorem seqCfg (initAddr : BitVec 16) (startEn eol : BitVec 1) : Statement (.seqCfg initAddr startEn eol) :=
  hasOpcode_commandWord (cfgArg_reserved initAddr startEn eol)
theorem seqRun : Statement .seqRun := hasOpcode_commandWord (by decide)
theorem statRd : Statement .statRd := hasOpcode_commandWord (by decide)
theorem reset : Statement .reset := hasOpcode_commandWord (by decide)
theorem data : Statement .data := rfl
theorem endOfFile : Statement .endOfFile := rfl
theorem extendedSegmentAddress : Statement .extendedSegmentAddress := rfl
theorem startAddress : Statement .startAddress := rfl

end Sys2Proof.Laws.OpcodeOf
end

