-- ==== Sys2Proof/Tests/Slice0.lean ====
section
/-! SUPPORT. Tests of one step each against the vectors of 95_test_vectors (named in each comment), the decoding
of a word written out from R75 to R83 for every constructor, the WellFormed smoke test, and a witness for every
statement of Certificates/Slice0/Obligations.lean that has hypotheses. -/

namespace Sys2Proof.Tests

open Sys2Proof Sys2Proof.Machine

/-- The next state of an answer, if it is one. -/
def nextOf : Result → Option State
  | .next t => some t
  | .fault _ => none
  | .refused _ => none

/-- A record is open and `n` bytes are owed. -/
def openState (acc n : Byte) : State := { State.reset with phase := .data, acc := acc, rem := n }

/-- A run is in progress in `q` over an available stream. -/
def runState (q : SeqState) (data : List Byte) (ending : StreamEnd) : State :=
  { State.reset with seqState := q, inp := { avail := true, data := data, ending := ending, pos := 0 } }

/-- A step at an overflow. -/
def overflowState (addr : BitVec 17) (n : BitVec 16) : State :=
  { runState .segOverflow [] .eos with curAddr := addr, segCnt := n }

/-- One word presented to a machine in state `s`. -/
def present (s : State) (cw : CommandWord) : Option State := nextOf (step { s with cmds := [cw], turn := .host })

/-! ### Well-formedness: the one check, with a term it refuses -/

theorem test_wellFormed_refuses_reserved_type : (Instr.fmtHdr 0x20 0x0000 0x03).wellFormed = false := by decide
theorem test_wellFormed_refuses_type_ff : (Instr.fmtHdr 0xFF 0xFFFF 0xFF).wellFormed = false := by decide
theorem test_wellFormed_admits_the_four :
    recordTypes.all (fun type => (Instr.fmtHdr 0 0 type).wellFormed) = true := by decide

/-! ### Decoding: a word for each constructor, written out from its bits (R76 to R79, R83) -/

/-- OP 0000, ARG 0. -/
theorem test_decode_csumClr : decodeCommand 0b000000000000000000000000000000000000 = .ok .csumClr := by decide
/-- OP 0001, 24 zero bits, b = 10101010 (V14). -/
theorem test_decode_csumAdd : decodeCommand 0b000100000000000000000000000010101010 = .ok (.csumAdd 0xAA) := by decide
/-- OP 0010, ARG 0. -/
theorem test_decode_csumRd : decodeCommand 0b001000000000000000000000000000000000 = .ok .csumRd := by decide
/-- OP 0100, count 00000011, address 0x1234, type 00000000 (P2). -/
theorem test_decode_fmtHdr :
    decodeCommand 0b010000000011000100100011010000000000 = .ok (.fmtHdr 3 0x1234 0x00) := by decide
/-- OP 0101, 24 zero bits, b = 01010101 (V84). -/
theorem test_decode_fmtDat : decodeCommand 0b010100000000000000000000000001010101 = .ok (.fmtDat 0x55) := by decide
/-- OP 0110, ARG 0. -/
theorem test_decode_fmtEof : decodeCommand 0b011000000000000000000000000000000000 = .ok .fmtEof := by decide
/-- OP 1000, 14 zero bits, eol 1, start_en 0, address 0x0100 (V90). -/
theorem test_decode_seqCfg :
    decodeCommand 0b100000000000000000100000000100000000 = .ok (.seqCfg 0x0100 0 1) := by decide
/-- OP 1001, ARG 0. -/
theorem test_decode_seqRun : decodeCommand 0b100100000000000000000000000000000000 = .ok .seqRun := by decide
/-- OP 1100, ARG 0. -/
theorem test_decode_statRd : decodeCommand 0b110000000000000000000000000000000000 = .ok .statRd := by decide
/-- OP 1111, ARG 0. -/
theorem test_decode_reset : decodeCommand 0b111100000000000000000000000000000000 = .ok .reset := by decide
/-- Record type 0x00 (R70). -/
theorem test_decode_data : decode (.recordType 0b00000000) = .ok .data := by decide
/-- Record type 0x01 (R70). -/
theorem test_decode_endOfFile : decode (.recordType 0b00000001) = .ok .endOfFile := by decide
/-- Record type 0x02 (R70). -/
theorem test_decode_extendedSegmentAddress :
    decode (.recordType 0b00000010) = .ok .extendedSegmentAddress := by decide
/-- Record type 0x04 (R70). -/
theorem test_decode_startAddress : decode (.recordType 0b00000100) = .ok .startAddress := by decide
/-- V60: the six reserved operation codes. -/
theorem test_decode_reserved_ops :
    ([0x300000000, 0x700000000, 0xA00000000, 0xB00000000, 0xD00000000, 0xE00000000] : List CommandWord).all
      (fun cw => decide (decodeCommand cw = .error .illOp)) = true := by decide
/-- V62 to V66: a reserved bit in each format. -/
theorem test_decode_reserved_bits :
    ([0x000000001, 0x1000001AA, 0x800040000, 0xC00000001, 0xF80000000] : List CommandWord).all
      (fun cw => decide (decodeCommand cw = .error .rsvBits)) = true := by decide

/-- The match and mask columns of the command rows of opcode_table.json. -/
def commandRows : List (Nat × Nat) :=
  [(0x000000000, 0xFFFFFFFFF), (0x100000000, 0xFFFFFFF00), (0x200000000, 0xFFFFFFFFF), (0x400000000, 0xF00000000),
   (0x500000000, 0xFFFFFFF00), (0x600000000, 0xFFFFFFFFF), (0x800000000, 0xFFFFC0000), (0x900000000, 0xFFFFFFFFF),
   (0xC00000000, 0xFFFFFFFFF), (0xF00000000, 0xFFFFFFFFF)]

/-- No two command rows of the table overlap. -/
theorem test_rows_disjoint :
    commandRows.Pairwise (fun a b => (a.1 ^^^ b.1) &&& (a.2 &&& b.2) ≠ 0) := by decide

/-- Each row's match word decodes, and `step` runs it as the first instruction after reset. -/
theorem test_rows_decode_and_run :
    (commandRows.all fun r => (decodeTableWord 40 r.1).isSome &&
      (nextOf (step (State.reset.withFetchWord 40 r.1))).isSome) = true := by decide
theorem test_record_rows_decode_and_run :
    (recordTypes.all fun type => (decodeTableWord 8 type.toNat).isSome &&
      (nextOf (step (State.reset.withFetchWord 8 type.toNat))).isSome) = true := by decide
/-- A written command word (R83): `FMT.HDR 0x20, 0x0000, 0x00` is 420000000. -/
theorem test_writtenDigits :
    writtenDigits 0x420000000 = [0x34, 0x32, 0x30, 0x30, 0x30, 0x30, 0x30, 0x30, 0x30] := by decide
/-- The parameters are legal (R193), and 0 and 256 are not legal chunk sizes. -/
theorem test_params_legal :
    params.legal = true ∧ (Params.mk 0 65535).legal = false ∧ (Params.mk 256 65535).legal = false := by decide

/-! ### Checksum unit -/

/-- V4, V5, V6, V11. -/
theorem test_checksum :
    checksum [0xFF] = 0x01 ∧ checksum [0x80] = 0x80 ∧ checksum [0x80, 0x80] = 0x00 ∧
    checksum [0x03, 0x12, 0x34, 0x00, 0x01, 0x02, 0x03] = 0xB1 := by decide
/-- V13. -/
theorem test_csumClr :
    (present { State.reset with acc := 0x5A } 0x000000000).map (fun t => (t.acc, t.rsps)) = some (0x00, [0x000]) := by
  decide
/-- V15: the carry out of bit 7 is dropped. -/
theorem test_csumAdd_wraps :
    (present { State.reset with acc := 0xAA } 0x1000000AA).map (fun t => (t.acc, t.rsps)) = some (0x54, [0x000]) := by
  decide
/-- V17. -/
theorem test_csumRd :
    (present { State.reset with acc := 0x54 } 0x200000000).map (fun t => (t.acc, t.rsps)) = some (0x54, [0x0AC]) := by
  decide

/-! ### Formatter -/

/-- V22: `:01002000558A`. -/
theorem test_line :
    line 1 0x0020 0x00 [0x55] =
      [0x3A, 0x30, 0x31, 0x30, 0x30, 0x32, 0x30, 0x30, 0x30, 0x35, 0x35, 0x38, 0x41] := by decide
/-- V80: opens the record, `:20000000`. -/
theorem test_fmtHdr_opens :
    (present State.reset 0x420000000).map (fun t => (t.out, t.acc, t.rem, t.phase)) =
      some ([0x3A, 0x32, 0x30, 0x30, 0x30, 0x30, 0x30, 0x30, 0x30], 0x20, 32, .data) := by decide
/-- V82: count 0 opens and closes, `:0000000000` and LF. -/
theorem test_fmtHdr_empty :
    (present State.reset 0x400000000).map (fun t => (t.out, t.rem, t.phase)) =
      some ([0x3A, 0x30, 0x30, 0x30, 0x30, 0x30, 0x30, 0x30, 0x30, 0x30, 0x30, 0x0A], 0, .idle) := by decide
/-- V68: a reserved type emits nothing and leaves `ACC`. -/
theorem test_fmtHdr_reserved_type :
    (present { State.reset with acc := 7 } 0x420000003).map (fun t => (t.out, t.acc, t.rsps)) =
      some ([], 7, [0x400]) := by decide
/-- V84: the last byte closes the record, `558A` and LF. -/
theorem test_fmtDat_closes :
    (present (openState 0x21 1) 0x500000055).map (fun t => (t.out, t.acc, t.rem, t.phase)) =
      some ([0x35, 0x35, 0x38, 0x41, 0x0A], 0x76, 0, .idle) := by decide
/-- V85. -/
theorem test_fmtDat_continues :
    (present (openState 0x12 2) 0x5000000AB).map (fun t => (t.out, t.acc, t.rem, t.phase)) =
      some ([0x41, 0x42], 0xBD, 1, .data) := by decide
/-- V86: CR LF. -/
theorem test_fmtEof_crlf :
    (present { State.reset with cfg := { initAddr := 0, startEn := 1, eol := 1 } } 0x600000000).map State.out =
      some [0x3A, 0x30, 0x30, 0x30, 0x30, 0x30, 0x30, 0x30, 0x31, 0x46, 0x46, 0x0D, 0x0A] := by decide

/-! ### System commands -/

/-- V90. -/
theorem test_seqCfg :
    (present State.reset 0x800020100).map (fun t => (t.cfg, t.curAddr)) =
      some ({ initAddr := 0x0100, startEn := 0, eol := 1 }, 0) := by decide
/-- P5 #2: the base address is loaded. -/
theorem test_seqRun_loads_base :
    (present { State.reset with
        cfg := { initAddr := 0x0100, startEn := 0, eol := 1 }, segCnt := 9
        streams := [{ avail := true, data := [0xDE], ending := .eos, pos := 4 }] } 0x900000000).map
      (fun t => (t.seqState, t.curAddr, t.segCnt, t.inp.pos, t.rsps)) =
      some (.start, 0x00100, 0, 0, [0x000]) := by decide
/-- V50. -/
theorem test_seqRun_unavailable :
    (present { State.reset with
        streams := [{ avail := false, data := [], ending := .eos, pos := 0 }] } 0x900000000).map
      (fun t => (t.seqState, t.err, t.out, t.status)) = some (.aborted, .inputUnavailable, [], 0x16) := by decide
/-- V73. -/
theorem test_statRd_open : (present (openState 0 1) 0xC00000000).map State.rsps = some [0x008] := by decide
/-- V94. -/
theorem test_reset_keeps_out :
    (present { State.reset with seqState := .streaming, curAddr := 0x0040, acc := 0x5A, out := [0x3A] } 0xF00000000).map
      (fun t => (t.seqState, t.curAddr, t.acc, t.out)) = some (.idle, 0, 0, [0x3A]) := by decide
/-- V77 and V75: `RSV_BITS` before `BUSY`. -/
theorem test_refusal_order :
    (present (runState .start [] .eos) 0x000000001).map State.rsps = some [0x200] ∧
    (present (runState .start [] .eos) 0x100000001).map State.rsps = some [0x500] := by decide
/-- V71: `BAD_PHASE` before `RSV_TYPE`. -/
theorem test_badPhase_before_rsvType : (present (openState 0 1) 0x420000003).map State.rsps = some [0x300] := by decide

/-! ### Steps of the sequencer -/

/-- S6: `:020000040000FA`, `ACC` = 0x06. -/
theorem test_startAddress :
    (nextOf (step (runState .start [] .eos))).map (fun t => (t.out, t.acc, t.seqState)) =
      some ([0x3A, 0x30, 0x32, 0x30, 0x30, 0x30, 0x30, 0x30, 0x34, 0x30, 0x30, 0x30, 0x30, 0x46, 0x41, 0x0A], 0x06,
        .streaming) := by decide
/-- P6 #10: `:02000000CAFE36`, the address not advanced. -/
theorem test_data_partial :
    (nextOf (step (runState .streaming [0xCA, 0xFE] .eos))).map (fun t => (t.out, t.acc, t.seqState, t.curAddr)) =
      some ([0x3A, 0x30, 0x32, 0x30, 0x30, 0x30, 0x30, 0x30, 0x30, 0x43, 0x41, 0x46, 0x45, 0x33, 0x36, 0x0A], 0xCA,
        .done, 0) := by decide
/-- V45: a full chunk at 0xFFFF overflows; `ACC` is the negation of the printed 0xE2. -/
theorem test_data_overflow :
    (nextOf (step { runState .streaming (List.replicate 32 0) .eos with curAddr := 0x0FFFF })).map
      (fun t => (t.acc, t.seqState, t.curAddr)) = some (0x1E, .segOverflow, 65567) := by decide
/-- R139's example: `:020000020001FB`. -/
theorem test_extendedSegmentAddress :
    (nextOf (step (overflowState 65536 0))).map (fun t => (t.out, t.acc, t.curAddr, t.segCnt)) =
      some ([0x3A, 0x30, 0x32, 0x30, 0x30, 0x30, 0x30, 0x30, 0x32, 0x30, 0x30, 0x30, 0x31, 0x46, 0x42, 0x0A], 0x05, 1, 1)
      := by decide
/-- S7: the 256th segment record has the high byte first, `:020000020100FB`. -/
theorem test_segment_high_byte_first :
    (nextOf (step (overflowState 65536 255))).map (fun t => t.out.drop 9) =
      some [0x30, 0x31, 0x30, 0x30, 0x46, 0x42, 0x0A] := by decide
/-- S1. -/
theorem test_endOfFile :
    (nextOf (step (runState .done [] .eos))).map (fun t => (t.out.length, t.acc, t.seqState)) =
      some (12, 0, .halted) := by decide
/-- V52: the bytes of a failed read are lost. -/
theorem test_data_fail :
    (nextOf (step (runState .streaming (List.replicate 31 0x11) .fail))).map
      (fun t => (t.out, t.acc, t.seqState, t.err, t.status)) = some ([], 0, .aborted, .readFailure, 0x26) := by decide
/-- P5: the records of the run, and their text with CR LF: 36 characters. -/
theorem test_encodeRun :
    (encodeRun params { initAddr := 0x0100, startEn := 0, eol := 1 }
      { avail := true, data := [0xDE, 0xAD, 0xBE, 0xEF, 0x01], ending := .eos, pos := 0 }).1.length = 36 := by decide

/-! ### Witnesses: states and operands that meet the hypotheses of the statements -/

theorem witness_EncodeInvertsDecode :
    ∃ (e : Encoding) (i : Instr), decode e = .ok i := ⟨.command 0x1000000AA, .csumAdd 0xAA, by decide⟩
theorem witness_StepRunsDecodedCommand_idle :
    ∃ (s : State) (cw : CommandWord) (rest : List CommandWord) (i : Instr),
      s.cmds = cw :: rest ∧ s.seqBusy = false ∧ decode (.command cw) = .ok i :=
  ⟨{ State.reset with cmds := [0x000000000] }, 0x000000000, [], .csumClr, by decide⟩
theorem witness_StepRunsDecodedCommand_hostTurn :
    ∃ (s : State) (cw : CommandWord) (rest : List CommandWord) (i : Instr),
      s.cmds = cw :: rest ∧ s.seqBusy = true ∧ s.turn = .host ∧ decode (.command cw) = .ok i :=
  ⟨{ runState .start [] .eos with cmds := [0xC00000000] }, 0xC00000000, [], .statRd, by decide⟩
theorem witness_StepRunsEnabledStep :
    ((runState .done [] .eos).seqBusy = true ∧ (runState .done [] .eos).cmds = []) ∧
    ∃ s : State, s.seqBusy = true ∧ s.cmds ≠ [] ∧ s.turn = .sequencer :=
  ⟨by decide, { runState .start [] .eos with cmds := [0xC00000000], turn := .sequencer }, by decide⟩
theorem witness_NothingHappensUntilCommand : State.reset.seqBusy = false ∧ State.reset.cmds = [] := by decide
theorem witness_RejectedWordOnlyAnswers :
    State.reset.seqBusy = false ∧ decode (.command 0x3FFFFFFFF) = .error .illOp ∧
    decode (.command 0xF80000000) = .error .rsvBits := by decide
theorem witness_StepKeepsInvariants : State.reset.Inv ∧ nextOf (step State.reset) = some State.reset := by
  refine ⟨?_, by decide⟩
  unfold State.Inv
  decide
theorem witness_StepKeepsInvariants_overflow :
    (overflowState 65567 0).Inv ∧ (nextOf (step (overflowState 65567 0))).isSome = true := by
  refine ⟨?_, by decide⟩
  unfold State.Inv
  decide
theorem witness_ChecksumFormsAgree : ∃ w : Nat, 8 ≤ w := ⟨8, by decide⟩
theorem witness_SumLaws : ∃ s t : List Byte, s ≠ t ∧ s.Perm t := ⟨[1, 2], [2, 1], by decide, by decide⟩
theorem witness_reserved_argument :
    (0x00000001 : BitVec 32) ≠ 0 ∧ (0x80000000 : BitVec 32) ≠ 0 ∧
    (0x00000100 : BitVec 32).extractLsb' 8 24 ≠ 0 ∧ (0x00040000 : BitVec 32).extractLsb' 18 14 ≠ 0 := by decide
/-- For `RefusedOutside .idle`: a run in progress, and an open record. -/
theorem witness_RefusedOutside_idle :
    (runState .done [] .eos).seqBusy = true ∧ (openState 0 1).seqBusy = false ∧ (openState 0 1).phase ≠ .idle := by
  decide
/-- For `RefusedOutside .data`: no record open. -/
theorem witness_RefusedOutside_data : State.reset.seqBusy = false ∧ State.reset.phase ≠ .data := by decide
/-- For every command that needs `IDLE`: reset, and the states after a run (`CsumClrClears`, `CsumAddAdds`,
`CsumRdAnswers`, `CsumOfComputesChecksum`, `FmtEofEmitsFixedRecord`, `SeqCfgWritesConfiguration`). -/
theorem witness_accepted_idle :
    (State.reset.seqBusy = false ∧ State.reset.phase = .idle) ∧
    ((runState .halted [] .eos).seqBusy = false ∧ (runState .halted [] .eos).phase = .idle) := by decide
theorem witness_LineCharacterPositions :
    ([] : List Byte).length = (0 : Byte).toNat ∧ (List.replicate 255 (0xFF : Byte)).length = (255 : Byte).toNat ∧
    254 < (List.replicate 255 (0xFF : Byte)).length := by
  rw [List.length_replicate]
  decide
theorem witness_FmtHdrOpensRecord :
    ((0x03 : Byte) ∉ ([0x00, 0x01, 0x02, 0x04] : List Byte)) ∧ ((0x04 : Byte) ∈ ([0x00, 0x01, 0x02, 0x04] : List Byte)) ∧
    (0 : Byte) = 0 ∧ (255 : Byte) ≠ 0 ∧ State.reset.seqBusy = false ∧ State.reset.phase = .idle := by decide
theorem witness_FmtDatTakesByte :
    ((openState 0 1).seqBusy = false ∧ (openState 0 1).phase = .data ∧ (openState 0 1).rem.toNat = 1) ∧
    ((openState 0 255).phase = .data ∧ (openState 0 255).rem ≠ 0 ∧ (openState 0 255).rem.toNat ≠ 1) := by decide
theorem witness_RecordThroughThePort :
    State.reset.seqBusy = false ∧ State.reset.phase = .idle ∧ (0x00 : Byte) ∈ ([0x00, 0x01, 0x02, 0x04] : List Byte) ∧
    [0x55, 0x66].length = (2 : Byte).toNat := by decide
theorem witness_OldSumNeverLeaks :
    ((overflowState 65536 0).segCnt ≠ 0xFFFF ∧ (overflowState 65536 0).seqState = .segOverflow) ∧
    ((runState .start [] .eos).seqState = .start ∧ (runState .start [] .eos).cfg.startEn = 1) ∧
    ((runState .streaming [0x11] .eos).seqState = .streaming ∧
      (streamRead 32 (runState .streaming [0x11] .eos).inp).buf ≠ []) := by decide
theorem witness_SeqRunStartsRun :
    ∃ (s : State) (i : Input), s.seqBusy = false ∧ s.phase = .idle ∧ s.streams = i :: [] ∧ i.avail = true :=
  ⟨{ State.reset with streams := [{ avail := true, data := [], ending := .eos, pos := 0 }] }, _, by decide, by decide,
    rfl, by decide⟩
theorem witness_NoStreamOfferedIsUnavailable :
    State.reset.seqBusy = false ∧ State.reset.phase = .idle ∧ State.reset.streams = [] := by decide
theorem witness_StatRdAnswersStatus :
    (State.reset.err = .none ∧ State.reset.phase = .idle ∧ State.reset.seqState = .idle) ∧
    ((openState 0 1).err = .none ∧ (openState 0 1).phase = .data ∧ (openState 0 1).seqState = .idle) ∧
    [SeqState.start, .streaming, .segOverflow, .done, .halted].all (fun q =>
      decide ((runState q [] .eos).err = .none ∧ (runState q [] .eos).phase = .idle ∧
        (runState q [] .eos).seqState = q)) = true ∧
    [ErrorKind.readFailure, .inputUnavailable].all (fun e =>
      decide ((State.reset.raiseError e).err = e ∧ (State.reset.raiseError e).phase = .idle ∧
        (State.reset.raiseError e).seqState = .aborted)) = true := by decide
theorem witness_OnlyStatusAndResetDuringRun :
    isCommand .csumClr = true ∧ isCommand .statRd = true ∧ isCommand .reset = true ∧
    (runState .start [] .eos).seqBusy = true := by decide
theorem witness_AdmissionTable :
    neededPhase (.fmtDat 0) = some .data ∧ neededPhase .seqRun = some .idle ∧
    neededPhase (.fmtHdr 1 0 3) = some .idle ∧ (Instr.fmtHdr 1 0 3).wellFormed = false ∧
    Instr.seqRun.wellFormed = true ∧ State.reset.phase = .idle ∧ (openState 0 1).phase = .data ∧
    (openState 0 1).seqBusy = false ∧ (runState .start [] .eos).seqBusy = true := by decide
theorem witness_StatusAndResetAlwaysAccepted :
    isCommand .reset = true ∧ neededPhase .reset = none ∧ neededPhase .statRd = none := by decide
/-- Exactly enough bytes, one too few with each end, at the greatest and the least request. -/
theorem witness_StreamReadUntilFull :
    (0 + 1 ≤ [(0x11 : Byte)].length) ∧ ([(0x11 : Byte)].length < 0 + 2) ∧
    (0 + 255 ≤ (List.replicate 255 (0 : Byte)).length) ∧ ((List.replicate 254 (0 : Byte)).length < 0 + 255) := by
  rw [List.length_replicate, List.length_replicate]
  decide
theorem witness_ReadsAreConsecutive :
    (streamRead 32 { avail := true, data := [0x11], ending := .eos, pos := 1 }).status ≠ .fail ∧
    (streamRead 1 { avail := true, data := [0x11], ending := .fail, pos := 0 }).status = .full := by decide
theorem witness_StartStepEmitsStartRecord :
    (runState .start [] .eos).cfg.startEn = 1 ∧
    ∃ s : State, s.seqState = .start ∧ s.cfg.startEn = 0 :=
  ⟨by decide, { runState .start [] .eos with cfg := { initAddr := 0, startEn := 0, eol := 0 } }, by decide⟩
theorem witness_StreamingStepReadsChunk :
    (streamRead 32 (runState .streaming [0x11] .fail).inp).status = .fail ∧
    ((streamRead 32 (runState .streaming [] .eos).inp).status = .short ∧
      (streamRead 32 (runState .streaming [] .eos).inp).buf = []) ∧
    ((streamRead 32 (runState .streaming (List.replicate 31 0) .eos).inp).status = .short ∧
      (streamRead 32 (runState .streaming (List.replicate 31 0) .eos).inp).buf ≠ []) ∧
    (streamRead 32 (runState .streaming (List.replicate 32 0) .eos).inp).status = .full ∧
    (runState .streaming [] .eos).curAddr.toNat ≤ 65535 := by decide
theorem witness_SegmentStepEmitsSegmentRecord :
    ((overflowState 65536 0xFFFF).seqState = .segOverflow ∧ (overflowState 65536 0xFFFF).segCnt = 0xFFFF) ∧
    ((overflowState 65567 0xFFFE).segCnt ≠ 0xFFFF ∧ 65536 ≤ (overflowState 65567 0xFFFE).curAddr.toNat ∧
      (overflowState 65567 0xFFFE).curAddr.toNat ≤ 65535 + 32) := by decide
theorem witness_ReducedAddressInRange :
    (Params.mk 32 65535).legal = true ∧ (Params.mk 255 65536).legal = true ∧
    65536 ≤ (overflowState 65536 0).curAddr.toNat ∧ (overflowState 65567 0).curAddr.toNat ≤ 65535 + 32 := by decide
theorem witness_DoneStepEmitsEndOfFile : (runState .done [] .eos).seqState = .done := by decide
theorem witness_StepOutsideItsStateRefused :
    State.reset.seqState ≠ .start ∧ State.reset.seqState ≠ .streaming ∧ State.reset.seqState ≠ .segOverflow ∧
    State.reset.seqState ≠ .done := by decide
theorem witness_frames :
    (nextOf (exec (.csumAdd 1) State.reset)).isSome = true ∧ Register.rem ∉ writtenRegisters (.csumAdd 1) ∧
    (nextOf (exec .data (runState .streaming [0x11] .eos))).isSome = true ∧
    Register.segCnt ∉ writtenRegisters .data := by decide
theorem witness_OutputAppendsOnlyListedCodes :
    (nextOf (step (runState .done [] .eos))).isSome = true := by decide
theorem witness_OnlyInputErrorsAbort :
    ((nextOf (step (runState .streaming [] .fail))).map State.seqState = some .aborted ∧
      (runState .streaming [] .fail).seqState ≠ .aborted) ∧
    ((present State.reset 0x900000000).map State.seqState = some .aborted ∧ State.reset.seqState ≠ .aborted) := by decide
theorem witness_ConfigurationHeldDuringRun :
    ∃ s : State, s.seqBusy = true ∧ (present s 0xF00000000).map State.cfg = some State.reset.cfg ∧
      State.reset.cfg ≠ s.cfg :=
  ⟨{ runState .start [] .eos with cfg := { initAddr := 1, startEn := 0, eol := 1 } }, by decide⟩
/-- The hypotheses of `RunIsEncode`, with a run of each kind it ends in but the one of 4 GiB. -/
theorem witness_RunIsEncode :
    ∃ (s : State) (i : Input), s.seqBusy = false ∧ s.phase = .idle ∧ s.cmds = [0x900000000] ∧ s.streams = i :: [] ∧
      (encodeRun params s.cfg i).2 = .halted :=
  ⟨{ State.reset with cmds := [0x900000000], streams := [{ avail := true, data := [0xCA], ending := .eos, pos := 0 }] },
    _, by decide, by decide, rfl, rfl, by decide⟩
/-- The hypotheses of the statements about the records of a run, across an overflow (V44, V47). -/
theorem witness_run_records :
    ∃ (cfg : Cfg) (i : Input), (runRecords params cfg i).2 = .halted ∧
      ((runRecords params cfg i).1.filter fun r => r.type == 0x02).length = 1 :=
  ⟨{ initAddr := 0xFFF0, startEn := 1, eol := 0 },
    { avail := true, data := List.replicate 64 0, ending := .eos, pos := 0 }, by decide⟩
/-- The two cases of `AddressSequenceOfRun` where they meet: an address of 65535 after the advance does not
overflow, one of 65536 or more does (R138 d, R139). -/
theorem witness_AddressSequenceOfRun :
    ((runRecords params { initAddr := 0xFFBF, startEn := 0, eol := 0 }
        { avail := true, data := List.replicate 96 0, ending := .eos, pos := 0 }).1.map
      fun r => (r.type.toNat, r.addr.toNat)) = [(0, 0xFFBF), (0, 0xFFDF), (0, 0xFFFF), (2, 0), (1, 0)] ∧
    ((runRecords params { initAddr := 0xFFC0, startEn := 1, eol := 0 }
        { avail := true, data := List.replicate 96 0, ending := .eos, pos := 0 }).1.map
      fun r => (r.type.toNat, r.addr.toNat)) = [(4, 0), (0, 0xFFC0), (0, 0xFFE0), (2, 0), (0, 1), (1, 0)] := by
  decide
theorem witness_SegmentRecordsCountBoundaries :
    ∃ (cfg : Cfg) (i : Input), cfg.initAddr = 0 ∧ i.data.length < 2162656 ∧ (runRecords params cfg i).2 = .halted :=
  ⟨{ initAddr := 0, startEn := 1, eol := 0 }, { avail := true, data := [], ending := .eos, pos := 0 }, by decide⟩

end Sys2Proof.Tests
end

section
/-! Facts about the state that hold of every instruction and every step: the registers an operation leaves alone
(R35), the invariants by name and the operations that keep them (R36), and the state after reset (R34). -/

namespace Sys2Proof.Machine

variable {s t : State} {r : Register}

/-! ### What each operation leaves unchanged in the registers (R35) -/

theorem State.setAcc_register (v : BitVec 8) (h : r ≠ .acc) : (s.setAcc v).register r = s.register r := by
  cases r <;> simp_all [State.register]

theorem State.setPhase_register (v : Phase) (h : r ≠ .phase) : (s.setPhase v).register r = s.register r := by
  cases r <;> simp_all [State.register]

theorem State.setRem_register (v : BitVec 8) (h : r ≠ .rem) : (s.setRem v).register r = s.register r := by
  cases r <;> simp_all [State.register]

theorem State.setSeqState_register (v : SeqState) (h : r ≠ .state) :
    (s.setSeqState v).register r = s.register r := by
  cases r <;> simp_all [State.register]

theorem State.setCurAddr_register (v : BitVec 17) (h : r ≠ .curAddr) :
    (s.setCurAddr v).register r = s.register r := by
  cases r <;> simp_all [State.register]

theorem State.setSegCnt_register (v : BitVec 16) (h : r ≠ .segCnt) :
    (s.setSegCnt v).register r = s.register r := by
  cases r <;> simp_all [State.register]

theorem State.setErr_register (v : ErrorKind) (h : r ≠ .err) : (s.setErr v).register r = s.register r := by
  cases r <;> simp_all [State.register]

theorem State.setCfg_register (v : Cfg) (h : r ≠ .cfg) : (s.setCfg v).register r = s.register r := by
  cases r <;> simp_all [State.register]

@[simp] theorem State.setInp_register (i : Input) : (s.setInp i).register r = s.register r := by
  cases r <;> rfl

@[simp] theorem State.setStreams_register (l : List Input) : (s.setStreams l).register r = s.register r := by
  cases r <;> rfl

@[simp] theorem State.emitAll_register (cs : List Byte) : (s.emitAll cs).register r = s.register r := by
  cases r <;> rfl

@[simp] theorem State.respond_register (code : RspCode) (data : Byte) :
    (s.respond code data).register r = s.register r := by
  cases r <;> rfl

@[simp] theorem State.refuse_register (code : RspCode) : (s.refuse code).register r = s.register r :=
  s.respond_register code 0x00

@[simp] theorem State.emitEof_register : s.emitEof.register r = s.register r :=
  s.emitAll_register _

theorem State.raiseError_register (e : ErrorKind) (he : r ≠ .err) (hq : r ≠ .state) :
    (s.raiseError e).register r = s.register r := by
  rw [State.raiseError, State.setSeqState_register _ hq, State.setErr_register _ he]

theorem State.closeRecord_register (hp : r ≠ .phase) (hm : r ≠ .rem) :
    s.closeRecord.register r = s.register r := by
  rw [State.closeRecord, State.setPhase_register _ hp, State.setRem_register _ hm, State.emitAll_register]

theorem State.emitRecord_register (count : Byte) (addr : BitVec 16) (type : Byte) (data : List Byte)
    (ha : r ≠ .acc) : (s.emitRecord count addr type data).register r = s.register r := by
  rw [State.emitRecord, State.emitAll_register, State.setAcc_register _ ha]

theorem State.openRecord_register (count : Byte) (addr : BitVec 16) (type : Byte)
    (ha : r ≠ .acc) (hp : r ≠ .phase) (hm : r ≠ .rem) :
    (s.openRecord count addr type).register r = s.register r := by
  obtain ⟨_, heq⟩ | ⟨_, heq⟩ := s.openRecord_cases count addr type
  · rw [heq, closeRecord_register hp hm, emitAll_register, setAcc_register _ ha]
  · rw [heq, setPhase_register _ hp, setRem_register _ hm, emitAll_register, setAcc_register _ ha]

theorem State.takeDataByte_register (b : Byte) (ha : r ≠ .acc) (hp : r ≠ .phase) (hm : r ≠ .rem) :
    (s.takeDataByte b).register r = s.register r := by
  obtain ⟨_, heq⟩ | ⟨_, heq⟩ := s.takeDataByte_cases b
  · rw [heq, closeRecord_register hp hm, emitAll_register, setRem_register _ hm, setAcc_register _ ha]
  · rw [heq, emitAll_register, setRem_register _ hm, setAcc_register _ ha]

theorem State.startRun_register (hq : r ≠ .state) (hc : r ≠ .curAddr) (hs : r ≠ .segCnt) (he : r ≠ .err) :
    s.startRun.register r = s.register r := by
  unfold State.startRun
  split <;>
    simp [State.setSeqState_register _ hq, State.setErr_register _ he, State.raiseError_register _ he hq,
      State.setSegCnt_register _ hs, State.setCurAddr_register _ hc]

theorem State.startStep_register (ha : r ≠ .acc) (hq : r ≠ .state) : s.startStep.register r = s.register r := by
  rw [State.startStep, State.setSeqState_register _ hq]
  split
  · exact State.emitRecord_register _ _ _ _ ha
  · rfl

/-- The advance as writes of `CUR_ADDR` and `STATE`, with one branch (R138). -/
theorem State.advance_eq_set (s : State) (chunk : Nat) :
    s.advance chunk = (s.setCurAddr (s.curAddr + BitVec.ofNat 17 chunk)).setSeqState
      (if s.curAddr + BitVec.ofNat 17 chunk > addrMax then .segOverflow else .streaming) :=
  s.advance_eq chunk

theorem State.advance_register (chunk : Nat) (hq : r ≠ .state) (hc : r ≠ .curAddr) :
    (s.advance chunk).register r = s.register r := by
  rw [State.advance_eq_set, State.setSeqState_register _ hq, State.setCurAddr_register _ hc]

theorem State.streamingStep_register (p : Params) (ha : r ≠ .acc) (hq : r ≠ .state) (hc : r ≠ .curAddr)
    (he : r ≠ .err) : (s.streamingStep p).register r = s.register r := by
  obtain ⟨_, heq⟩ | ⟨_, _, heq⟩ | ⟨_, _, heq⟩ | ⟨_, heq⟩ := s.streamingStep_cases p
  · rw [heq, raiseError_register _ he hq, setInp_register]
  · rw [heq, setSeqState_register _ hq, setInp_register]
  · rw [heq, setSeqState_register _ hq, emitData, emitRecord_register _ _ _ _ ha, setInp_register]
  · rw [heq, advance_register _ hq hc, emitData, emitRecord_register _ _ _ _ ha, setInp_register]

theorem State.segmentStep_register (p : Params) (ha : r ≠ .acc) (hq : r ≠ .state) (hc : r ≠ .curAddr)
    (hs : r ≠ .segCnt) : (s.segmentStep p).register r = s.register r := by
  rw [State.segmentStep, setSeqState_register _ hq, emitRecord_register _ _ _ _ ha, setSegCnt_register _ hs,
    setCurAddr_register _ hc]

theorem State.doneStep_register (hq : r ≠ .state) : s.doneStep.register r = s.register r := by
  rw [State.doneStep, setSeqState_register _ hq, emitEof_register]

/-- A command leaves a register alone if its accepted form does: a refusal writes none (R165). -/
theorem State.ifAdmitted_register {need : Phase} {accepted : State} (hx : s.ifAdmitted need accepted = .next t)
    (ha : accepted.register r = s.register r) : t.register r = s.register r := by
  obtain ⟨code, rfl⟩ | ⟨_, _, rfl⟩ := State.ifAdmitted_cases hx
  · exact s.refuse_register code
  · exact ha

/-- A step of the sequencer leaves a register alone if its body does. -/
theorem State.ifEnabled_register {need : SeqState} {taken : State} (hx : s.ifEnabled need (.next taken) = .next t)
    (ha : taken.register r = s.register r) : t.register r = s.register r := by
  obtain ⟨_, heq⟩ := State.ifEnabled_cases hx
  cases heq
  exact ha

/-- What the step `SEG_OVERFLOW` can answer as a next state (R139). -/
theorem execExtendedSegmentAddress_cases (hx : execExtendedSegmentAddress s = .next t) :
    s.seqState = .segOverflow ∧ s.segCnt ≠ 0xFFFF ∧ t = s.segmentStep params := by
  obtain ⟨hq, htaken⟩ := State.ifEnabled_cases hx
  split at htaken
  · cases htaken
  · cases htaken
    exact ⟨hq, ‹_›, rfl⟩

/-- Settles O47: one case per instruction, each by the frame rule of the operation it performs. -/
theorem accessTableFrame : Obligations.AccessTableFrame := by
  intro i s t hx r hr
  cases i <;> simp only [writtenRegisters, List.mem_cons, List.not_mem_nil, or_false, not_or] at hr
  case csumClr => exact State.ifAdmitted_register hx (by simp [State.setAcc_register _ hr])
  case csumAdd b => exact State.ifAdmitted_register hx (by simp [State.setAcc_register _ hr])
  case csumRd => exact State.ifAdmitted_register hx (by simp)
  case fmtHdr count addr type =>
    obtain ⟨ha, hp, hm⟩ := hr
    refine State.ifAdmitted_register hx ?_
    split
    · rw [State.respond_register, State.openRecord_register _ _ _ ha hp hm]
    · exact s.refuse_register _
  case fmtDat b =>
    obtain ⟨ha, hp, hm⟩ := hr
    exact State.ifAdmitted_register hx (by simp [State.takeDataByte_register b ha hp hm])
  case fmtEof => exact State.ifAdmitted_register hx (by simp)
  case seqCfg initAddr startEn eol => exact State.ifAdmitted_register hx (by simp [State.setCfg_register _ hr])
  case seqRun =>
    obtain ⟨hq, hc, hs, he⟩ := hr
    exact State.ifAdmitted_register hx (by simp [State.startRun_register hq hc hs he])
  case statRd =>
    cases hx
    exact s.respond_register _ _
  case reset => cases r <;> simp at hr -- the row of `RESET` lists every register
  case data =>
    obtain ⟨ha, hq, hc, he⟩ := hr
    exact State.ifEnabled_register hx (State.streamingStep_register params ha hq hc he)
  case endOfFile => exact State.ifEnabled_register hx (State.doneStep_register hr)
  case extendedSegmentAddress =>
    obtain ⟨ha, hq, hc, hs⟩ := hr
    obtain ⟨_, _, rfl⟩ := execExtendedSegmentAddress_cases hx
    exact State.segmentStep_register params ha hq hc hs
  case startAddress =>
    obtain ⟨ha, hq⟩ := hr
    exact State.ifEnabled_register hx (State.startStep_register ha hq)

/-! ### The invariants by name (R36) -/

theorem State.seqBusy_of_seqState {q : SeqState} (hq : s.seqState = q) : s.seqBusy = q.busy := by
  rw [State.seqBusy, hq]

/-- The conjuncts of `State.Inv` that can fail, each under a name. -/
structure Invariants (s : State) : Prop where
  /-- A record is open exactly while bytes are owed (R36 a). -/
  recordOpen : s.phase = .idle ↔ s.rem = 0
  /-- `ERR` is set exactly in `ABORTED` (R36 b). -/
  errAborted : s.err ≠ .none ↔ s.seqState = .aborted
  /-- The running address fits 16 bits outside `SEG_OVERFLOW` (R36 c). -/
  addrLow : s.seqState ≠ .segOverflow → s.curAddr.toNat ≤ 65535
  /-- In `SEG_OVERFLOW` it is past 16 bits by one chunk at most (R24). -/
  addrOverflow : s.seqState = .segOverflow → 65536 ≤ s.curAddr.toNat ∧ s.curAddr.toNat ≤ 65535 + 32
  /-- No record is open during a run (R36 d). -/
  idleInRun : s.seqBusy = true → s.phase = .idle
  /-- A run in progress has its input (R42, R161). -/
  inputInRun : s.seqBusy = true → s.inp.avail = true
  /-- The cursor stays within the data (R43). -/
  cursorInData : s.inp.pos ≤ s.inp.data.length

theorem SeqState.code_ne_seven (q : SeqState) : q.code ≠ 7 := by cases q <;> decide

theorem ErrorKind.code_ne_three (e : ErrorKind) : e.code ≠ 3 := by cases e <;> decide

/-- The codes 7 of `STATE` and 3 of `ERR` have no constructor, so `Invariants` is the whole of `State.Inv`. -/
theorem State.inv_iff : s.Inv ↔ Invariants s := by
  constructor
  · rintro ⟨hrec, herr, hlow, hover, hidle, _, hinp, hcur⟩
    exact ⟨hrec, herr, hlow, hover, hidle, hinp, hcur⟩
  · rintro ⟨hrec, herr, hlow, hover, hidle, hinp, hcur⟩
    exact ⟨hrec, herr, hlow, hover, hidle, ⟨s.seqState.code_ne_seven, s.err.code_ne_three⟩, hinp, hcur⟩

theorem invariants_reset : Invariants State.reset where
  recordOpen := by decide
  errAborted := by decide
  addrLow := by decide
  addrOverflow := by decide
  idleInRun := by decide
  inputInRun := by decide
  cursorInData := by decide

/-- Settles O12. -/
theorem invariantsHoldAtReset : Obligations.InvariantsHoldAtReset := State.inv_iff.2 invariants_reset

namespace Invariants

/-! ### Operations on fields the invariants do not mention -/

theorem setAcc (h : Invariants s) (v : BitVec 8) : Invariants (s.setAcc v) := { h with }
theorem setCfg (h : Invariants s) (c : Cfg) : Invariants (s.setCfg c) := { h with }
theorem emitAll (h : Invariants s) (cs : List Byte) : Invariants (s.emitAll cs) := { h with }
theorem respond (h : Invariants s) (code : RspCode) (data : Byte) : Invariants (s.respond code data) := { h with }
theorem refuse (h : Invariants s) (code : RspCode) : Invariants (s.refuse code) := h.respond code 0x00
theorem nextTurn (h : Invariants s) : Invariants s.nextTurn := { h with }
theorem dropCommand (h : Invariants s) : Invariants s.dropCommand := { h with }

/-! ### Operations of the formatter -/

theorem closeRecord (h : Invariants s) : Invariants s.closeRecord :=
  { h with
    recordOpen := ⟨fun _ => rfl, fun _ => rfl⟩
    idleInRun := fun _ => rfl }

/-- A header opens a record only with no run in progress, and only if bytes are owed (R112). -/
theorem openRecord (h : Invariants s) (hb : s.seqBusy = false) (count : Byte) (addr : BitVec 16) (type : Byte) :
    Invariants (s.openRecord count addr type) := by
  have hheader := (h.setAcc (sum8 (headerBytes count addr type))).emitAll
    (colon :: hexPairs (headerBytes count addr type))
  obtain ⟨_, heq⟩ | ⟨hcount, heq⟩ := s.openRecord_cases count addr type
  · rw [heq]
    exact hheader.closeRecord
  · rw [heq]
    exact { hheader with
      recordOpen := iff_of_false nofun hcount
      idleInRun := fun hbusy => absurd (hb.symm.trans hbusy) (by decide) }

/-- A data byte leaves the record open as long as another is owed (R113). -/
theorem takeDataByte (h : Invariants s) (hb : s.seqBusy = false) (hp : s.phase = .data) (b : Byte) :
    Invariants (s.takeDataByte b) := by
  obtain ⟨_, heq⟩ | ⟨hrem, heq⟩ := s.takeDataByte_cases b
  · rw [heq]
    exact { h with
      recordOpen := ⟨fun _ => rfl, fun _ => rfl⟩
      idleInRun := fun _ => rfl }
  · have howed : s.rem - 1 ≠ 0 := by
      rw [Ne, BitVec.sub_eq_iff_eq_add]
      simpa using hrem
    rw [heq]
    exact { h with
      recordOpen := iff_of_false (by simp [hp]) howed
      idleInRun := fun hbusy => absurd (hb.symm.trans hbusy) (by decide) }

/-! ### Operations of the sequencer -/

theorem resetRegisters (h : Invariants s) : Invariants s.resetRegisters :=
  { invariants_reset with
    inputInRun := nofun
    cursorInData := h.cursorInData }

/-- During a run no error is set (R36 b). -/
theorem err_none (h : Invariants s) (hb : s.seqBusy = true) : s.err = .none := by
  by_contra herr
  have habort : s.seqState = .aborted := h.errAborted.1 herr
  exact absurd ((State.seqBusy_of_seqState habort).symm.trans hb) (by decide)

/-- A run goes on to any state but `ABORTED`, with a running address in the range of that state. -/
theorem move (h : Invariants s) (hb : s.seqBusy = true) {a : BitVec 17} {q : SeqState} (hq : q ≠ .aborted)
    (hlow : q ≠ .segOverflow → a.toNat ≤ 65535)
    (hover : q = .segOverflow → 65536 ≤ a.toNat ∧ a.toNat ≤ 65535 + 32) :
    Invariants ((s.setCurAddr a).setSeqState q) :=
  { h with
    errAborted := iff_of_false (not_not_intro (h.err_none hb)) hq
    addrLow := hlow
    addrOverflow := hover
    idleInRun := fun _ => h.idleInRun hb
    inputInRun := fun _ => h.inputInRun hb }

/-- `SEG_OVERFLOW` apart, a running address of 16 bits goes with every state of a run. -/
theorem setSeqState (h : Invariants s) (hb : s.seqBusy = true) (haddr : s.curAddr.toNat ≤ 65535) {q : SeqState}
    (hq : q ≠ .aborted) (hover : q ≠ .segOverflow) : Invariants (s.setSeqState q) :=
  h.move hb hq (fun _ => haddr) (fun heq => absurd heq hover)

/-- Trap entry outside `SEG_OVERFLOW` (R170). -/
theorem raiseError (h : Invariants s) (haddr : s.curAddr.toNat ≤ 65535) {e : ErrorKind} (he : e ≠ .none) :
    Invariants (s.raiseError e) :=
  { h with
    errAborted := iff_of_true he rfl
    addrLow := fun _ => haddr
    addrOverflow := nofun
    idleInRun := nofun
    inputInRun := nofun }

/-- A read keeps the stream and leaves its cursor within the data (R43). -/
theorem read (h : Invariants s) (n : Nat) : Invariants (s.setInp (streamRead n s.inp).rest) := by
  obtain ⟨havail, hdata, _, hpos⟩ := streamRead_rest n s.inp
  exact { h with
    inputInRun := fun hb => havail.trans (h.inputInRun hb)
    cursorInData := by simpa [hdata] using hpos h.cursorInData }

theorem emitRecord (h : Invariants s) (count : Byte) (addr : BitVec 16) (type : Byte) (data : List Byte) :
    Invariants (s.emitRecord count addr type data) :=
  (h.setAcc _).emitAll _

theorem startRun (h : Invariants s) (hp : s.phase = .idle) : Invariants s.startRun := by
  have haddr : (s.cfg.initAddr.setWidth 17).toNat ≤ 65535 := by
    rw [BitVec.toNat_setWidth]
    omega
  have hpos : s.nextInput.pos ≤ s.nextInput.data.length := by simp [s.nextInput_pos]
  rw [State.startRun_eq]
  cases havail : s.nextInput.avail
  · exact { h with
      errAborted := by simp
      addrLow := fun _ => haddr
      addrOverflow := nofun
      idleInRun := nofun
      inputInRun := nofun
      cursorInData := hpos }
  · exact { h with
      errAborted := by simp
      addrLow := fun _ => haddr
      addrOverflow := nofun
      idleInRun := fun _ => hp
      inputInRun := fun _ => havail
      cursorInData := hpos }

theorem startStep (h : Invariants s) (hq : s.seqState = .start) : Invariants s.startStep := by
  have hb : s.seqBusy = true := State.seqBusy_of_seqState hq
  have haddr : s.curAddr.toNat ≤ 65535 := h.addrLow (by simp [hq])
  unfold State.startStep
  split
  · exact (h.emitRecord _ _ _ _).setSeqState hb haddr nofun nofun
  · exact h.setSeqState hb haddr nofun nofun

/-- One chunk takes the running address at most 32 past 65535, and past it exactly when `SEG_OVERFLOW` comes
next (R138). -/
theorem advance (h : Invariants s) (hb : s.seqBusy = true) (haddr : s.curAddr.toNat ≤ 65535) :
    Invariants (s.advance params.chunk) := by
  have hsum : (s.curAddr + BitVec.ofNat 17 params.chunk).toNat = s.curAddr.toNat + 32 := by
    simp only [params]
    bv_omega
  have htest : s.curAddr + BitVec.ofNat 17 params.chunk > addrMax ↔ 65535 < s.curAddr.toNat + 32 := by
    rw [gt_iff_lt, BitVec.lt_def, hsum]
    rfl
  rw [State.advance_eq_set]
  by_cases hpast : s.curAddr + BitVec.ofNat 17 params.chunk > addrMax
  · rw [if_pos hpast]
    rw [htest] at hpast
    exact h.move hb nofun nofun (fun _ => by rw [hsum]; omega)
  · rw [if_neg hpast]
    rw [htest] at hpast
    exact h.move hb nofun (fun _ => by rw [hsum]; omega) nofun

theorem streamingStep (h : Invariants s) (hq : s.seqState = .streaming) : Invariants (s.streamingStep params) := by
  have hb : s.seqBusy = true := State.seqBusy_of_seqState hq
  have haddr : s.curAddr.toNat ≤ 65535 := h.addrLow (by simp [hq])
  have hread := h.read params.chunk
  obtain ⟨_, heq⟩ | ⟨_, _, heq⟩ | ⟨_, _, heq⟩ | ⟨_, heq⟩ := s.streamingStep_cases params <;> rw [heq]
  · exact hread.raiseError haddr nofun
  · exact hread.setSeqState hb haddr nofun nofun
  · exact (hread.emitRecord _ _ _ _).setSeqState hb haddr nofun nofun
  · exact (hread.emitRecord _ _ _ _).advance hb haddr

/-- The subtraction of `SEG_SUB` brings the running address back to 1 to 32 (R139). -/
theorem segmentStep (h : Invariants s) (hq : s.seqState = .segOverflow) : Invariants (s.segmentStep params) := by
  have hb : s.seqBusy = true := State.seqBusy_of_seqState hq
  obtain ⟨hmin, hmax⟩ := h.addrOverflow hq
  have haddr : (s.curAddr - params.segSub).toNat ≤ 65535 := by
    simp only [params]
    bv_omega
  exact { h.move hb (q := .streaming) nofun (fun _ => haddr) nofun with }

theorem doneStep (h : Invariants s) (hq : s.seqState = .done) : Invariants s.doneStep := by
  have hb : s.seqBusy = true := State.seqBusy_of_seqState hq
  exact (h.emitAll _).setSeqState hb (h.addrLow (by simp [hq])) nofun nofun

/-! ### Instructions and steps -/

/-- A command keeps the invariants if its accepted form does: a refusal only answers (R165). -/
theorem ifAdmitted (h : Invariants s) {need : Phase} {accepted : State}
    (hx : s.ifAdmitted need accepted = .next t)
    (ha : s.seqBusy = false → s.phase = need → Invariants accepted) : Invariants t := by
  obtain ⟨code, rfl⟩ | ⟨hb, hp, rfl⟩ := State.ifAdmitted_cases hx
  · exact h.refuse code
  · exact ha hb hp

/-- A step of the sequencer keeps the invariants if its body does. -/
theorem ifEnabled {need : SeqState} {taken : State} (hx : s.ifEnabled need (.next taken) = .next t)
    (ha : s.seqState = need → Invariants taken) : Invariants t := by
  obtain ⟨hq, heq⟩ := State.ifEnabled_cases hx
  cases heq
  exact ha hq

theorem exec (h : Invariants s) {i : Instr} (hx : exec i s = .next t) : Invariants t := by
  cases i with
  | csumClr => exact h.ifAdmitted hx fun _ _ => (h.setAcc _).respond _ _
  | csumAdd b => exact h.ifAdmitted hx fun _ _ => (h.setAcc _).respond _ _
  | csumRd => exact h.ifAdmitted hx fun _ _ => h.respond _ _
  | fmtHdr count addr type =>
    refine h.ifAdmitted hx fun hb _ => ?_
    split
    · exact (h.openRecord hb count addr type).respond _ _
    · exact h.refuse _
  | fmtDat b => exact h.ifAdmitted hx fun hb hp => (h.takeDataByte hb hp b).respond _ _
  | fmtEof => exact h.ifAdmitted hx fun _ _ => (h.emitAll _).respond _ _
  | seqCfg initAddr startEn eol => exact h.ifAdmitted hx fun _ _ => (h.setCfg _).respond _ _
  | seqRun => exact h.ifAdmitted hx fun _ hp => (h.startRun hp).respond _ _
  | statRd =>
    cases hx
    exact h.respond _ _
  | reset =>
    cases hx
    exact h.resetRegisters.respond _ _
  | data => exact ifEnabled hx h.streamingStep
  | endOfFile => exact ifEnabled hx h.doneStep
  | extendedSegmentAddress =>
    obtain ⟨hq, _, rfl⟩ := execExtendedSegmentAddress_cases hx
    exact h.segmentStep hq
  | startAddress => exact ifEnabled hx h.startStep

end Invariants

/-- Everything `step` can answer as a next state: the block waits, or the host's word is executed or refused, or
the enabled step of the sequencer is executed. -/
theorem step_cases (hx : step s = .next t) :
    (s.seqBusy = false ∧ s.cmds = [] ∧ t = s) ∨
    (∃ cw rest, s.cmds = cw :: rest ∧ (s.seqBusy = false ∨ s.turn = .host) ∧
      ((∃ i, decodeCommand cw = .ok i ∧ exec i s.dropCommand.nextTurn = .next t) ∨
        (∃ code, decodeCommand cw = .error code ∧ t = s.dropCommand.nextTurn.refuse code))) ∨
    (∃ i, s.seqState.enabledStep = some i ∧ (s.cmds = [] ∨ s.turn = .sequencer) ∧ exec i s.nextTurn = .next t) := by
  unfold step at hx
  obtain ⟨hb, hc, hf⟩ | ⟨cw, rest, hc, hw, hf⟩ | ⟨i, hi, hw, hf⟩ := s.fetch_cases <;> rw [hf] at hx
  · cases hx
    exact .inl ⟨hb, hc, rfl⟩
  · refine .inr (.inl ⟨cw, rest, hc, hw, ?_⟩)
    cases hd : decodeCommand cw with
    | ok i =>
      simp only [commandAction, hd] at hx
      exact .inl ⟨i, rfl, hx⟩
    | error code =>
      simp only [commandAction, hd, Host.Outcome.next.injEq] at hx
      exact .inr ⟨code, rfl, hx.symm⟩
  · exact .inr (.inr ⟨i, hi, hw, hx⟩)

/-- Settles O13: fetching touches no field of the invariants, and every instruction keeps them. -/
theorem stepKeepsInvariants : Obligations.StepKeepsInvariants := by
  intro s t hs hx
  rw [State.inv_iff] at hs ⊢
  obtain ⟨_, _, rfl⟩ | ⟨_, _, _, _, ⟨_, _, hexec⟩ | ⟨code, _, rfl⟩⟩ | ⟨_, _, _, hexec⟩ := step_cases hx
  · exact hs
  · exact hs.dropCommand.nextTurn.exec hexec
  · exact hs.dropCommand.nextTurn.refuse code
  · exact hs.nextTurn.exec hexec

/-! ### The state after reset (R34) -/

theorem State.resetRegisters_register (s : State) (r : Register) :
    s.resetRegisters.register r = State.reset.register r := by
  cases r <;> rfl

/-- Settles O10: the table's values, and `RESET` writes every register with them. -/
theorem resetValues : Obligations.ResetValues := by
  have hstatus : State.reset.status = 0x00 := by decide
  refine ⟨rfl, rfl, rfl, rfl, rfl, rfl, rfl, rfl, rfl, rfl, hstatus, fun s => ?_⟩
  refine ⟨s.resetRegisters.respond .ok 0x00, rfl, fun r => ?_, hstatus, rfl, rfl⟩
  rw [State.respond_register, State.resetRegisters_register]

end Sys2Proof.Machine
end

section
/-! What lies outside the block (20_memory): the answers of `StreamRead` (R43), what an instruction leaves alone of
the output, the input, the responses and the host's side (R42, R45, R80), and the configuration during a run (R56). -/

namespace Sys2Proof.Machine

variable {s t : State}

/-! ### The answers of `StreamRead` (R43) -/

section
variable {n : Nat} {i : Input}

/-- With `n` bytes left a read is full. -/
theorem streamRead_full (h : i.pos + n ≤ i.data.length) :
    streamRead n i =
      { buf := (i.data.drop i.pos).take n, status := .full, rest := { i with pos := i.pos + n } } := by
  have hk : min n (i.data.length - i.pos) = n := by omega
  simp [streamRead, hk]

/-- With fewer bytes left and the end `EOS` a read delivers them all. -/
theorem streamRead_short (hpos : i.pos ≤ i.data.length) (h : i.data.length < i.pos + n) (hend : i.ending = .eos) :
    streamRead n i =
      { buf := i.data.drop i.pos, status := .short, rest := { i with pos := i.data.length } } := by
  have hk : min n (i.data.length - i.pos) = i.data.length - i.pos := by omega
  have hne : ¬ i.data.length - i.pos = n := by omega
  simp [streamRead, hk, hne, hend, hpos, List.take_of_length_le]

/-- With fewer bytes left and the end `FAIL` a read delivers nothing. -/
theorem streamRead_fail (hpos : i.pos ≤ i.data.length) (h : i.data.length < i.pos + n) (hend : i.ending = .fail) :
    streamRead n i = { buf := [], status := .fail, rest := { i with pos := i.data.length } } := by
  have hk : min n (i.data.length - i.pos) = i.data.length - i.pos := by omega
  have hne : ¬ i.data.length - i.pos = n := by omega
  simp [streamRead, hk, hne, hend, hpos]

end

/-- Settles O39: the three cases of a read. -/
theorem streamReadUntilFull : Obligations.StreamReadUntilFull :=
  fun _ _ _ _ hpos => ⟨streamRead_full, streamRead_short hpos, streamRead_fail hpos⟩

/-- Settles O40: a read that does not fail is full or short, and either leaves the rest of the data behind its
cursor. -/
theorem readsAreConsecutive : Obligations.ReadsAreConsecutive := by
  intro n i hpos hstatus
  by_cases h : i.pos + n ≤ i.data.length
  · have hlen : ((i.data.drop i.pos).take n).length = n := by simp; omega
    rw [streamRead_full h]
    refine ⟨rfl, by rw [hlen], ?_, iff_of_true rfl hlen⟩
    rw [← List.drop_drop, List.take_append_drop]
  · rw [not_le] at h
    cases hend : i.ending with
    | eos =>
      have hlen : i.pos + (i.data.drop i.pos).length = i.data.length := by simp; omega
      rw [streamRead_short hpos h hend]
      refine ⟨rfl, hlen.symm, ?_, iff_of_false nofun (by dsimp only; omega)⟩
      rw [List.drop_length, List.append_nil]
    | fail => simp [streamRead_fail hpos h hend] at hstatus

/-! ### What an instruction leaves alone outside the registers (R42, R45, R80) -/

/-- What lies outside the block's registers, but for the output: the input and the streams offered (R42), the
responses (R80), and the host's queue with the model's turn and tick (log entries 2, 3). -/
structure Environment where
  inp : Input
  streams : List Input
  rsps : List ResponseWord
  cmds : List CommandWord
  turn : Agent
  ticks : Nat

/-- The environment of a state. -/
def State.environment (s : State) : Environment :=
  { inp := s.inp, streams := s.streams, rsps := s.rsps, cmds := s.cmds, turn := s.turn, ticks := s.ticks }

/-- An equation of environments, field by field. -/
theorem State.environment_eq {e : Environment} :
    t.environment = e ↔
      t.inp = e.inp ∧ t.streams = e.streams ∧ t.rsps = e.rsps ∧ t.cmds = e.cmds ∧ t.turn = e.turn ∧
        t.ticks = e.ticks := by
  cases e
  simp [State.environment]

theorem State.respond_environment (code : RspCode) (data : Byte) :
    (s.respond code data).environment =
      { s.environment with rsps := s.environment.rsps ++ [responseWord code data] } := rfl

theorem State.openRecord_environment (count : Byte) (addr : BitVec 16) (type : Byte) :
    (s.openRecord count addr type).environment = s.environment := by
  obtain ⟨_, heq⟩ | ⟨_, heq⟩ := s.openRecord_cases count addr type <;> rw [heq] <;> rfl

theorem State.takeDataByte_environment (b : Byte) : (s.takeDataByte b).environment = s.environment := by
  obtain ⟨_, heq⟩ | ⟨_, heq⟩ := s.takeDataByte_cases b <;> rw [heq] <;> rfl

theorem State.startStep_environment : s.startStep.environment = s.environment := by
  unfold State.startStep
  split <;> rfl

/-- `SEQ.RUN` binds the next stream offered (R135). -/
theorem State.startRun_environment :
    s.startRun.environment = { s.environment with inp := s.nextInput, streams := s.streams.tail } := by
  rw [State.startRun_eq]; rfl

/-- The step `STREAMING` reads once (R138). -/
theorem State.streamingStep_environment (p : Params) :
    (s.streamingStep p).environment = { s.environment with inp := (streamRead p.chunk s.inp).rest } := by
  obtain ⟨_, heq⟩ | ⟨_, _, heq⟩ | ⟨_, _, heq⟩ | ⟨_, heq⟩ := s.streamingStep_cases p
  · rw [heq]; rfl
  · rw [heq]; rfl
  · rw [heq]; rfl
  · rw [heq, State.advance_eq]; rfl

/-- `t` is `s` outside the registers and the output, with one response more. -/
def State.AnsweredOnce (s t : State) : Prop :=
  ∃ w : ResponseWord, t.environment = { s.environment with rsps := s.rsps ++ [w] }

theorem State.answeredOnce_respond {u : State} (h : u.environment = s.environment) (code : RspCode) (data : Byte) :
    s.AnsweredOnce (u.respond code data) :=
  ⟨responseWord code data, by rw [State.respond_environment, h]; rfl⟩

/-- A command answers once if its accepted form does: a refusal only answers (R165). -/
theorem State.ifAdmitted_answeredOnce {need : Phase} {accepted : State}
    (hx : s.ifAdmitted need accepted = .next t) (ha : s.AnsweredOnce accepted) : s.AnsweredOnce t := by
  obtain ⟨code, rfl⟩ | ⟨_, _, rfl⟩ := State.ifAdmitted_cases hx
  · exact State.answeredOnce_respond rfl code 0x00
  · exact ha

/-- A command other than `SEQ.RUN` answers once and touches nothing else outside the registers and the output. -/
theorem exec_command_answeredOnce {i : Instr} (hx : exec i s = .next t) (hi : isCommand i = true)
    (hrun : i ≠ .seqRun) : s.AnsweredOnce t := by
  cases i with
  | csumClr | csumAdd | csumRd | fmtEof | seqCfg =>
    exact State.ifAdmitted_answeredOnce hx (State.answeredOnce_respond rfl _ _)
  | fmtHdr count addr type =>
    refine State.ifAdmitted_answeredOnce hx ?_
    split
    · exact State.answeredOnce_respond (State.openRecord_environment count addr type) _ _
    · exact State.answeredOnce_respond rfl _ _
  | fmtDat b =>
    exact State.ifAdmitted_answeredOnce hx (State.answeredOnce_respond (State.takeDataByte_environment b) _ _)
  | seqRun => exact absurd rfl hrun
  | statRd | reset =>
    cases hx
    exact State.answeredOnce_respond rfl _ _
  | data | endOfFile | extendedSegmentAddress | startAddress => cases hi

/-- `SEQ.RUN` answers once, and binds a stream if it is admitted (R135). -/
theorem exec_seqRun_environment (hx : exec .seqRun s = .next t) :
    ∃ (w : ResponseWord) (inp : Input) (streams : List Input),
      t.environment = { s.environment with inp := inp, streams := streams, rsps := s.rsps ++ [w] } := by
  obtain ⟨code, rfl⟩ | ⟨_, _, rfl⟩ := State.ifAdmitted_cases hx
  · exact ⟨responseWord code 0x00, s.inp, s.streams, rfl⟩
  · exact ⟨responseWord .ok 0x00, s.nextInput, s.streams.tail, by
      rw [State.respond_environment, State.startRun_environment]; rfl⟩

/-- A step of the sequencer touches of the environment the input only, and only the step `STREAMING` does. -/
theorem exec_step_environment {i : Instr} (hx : exec i s = .next t) (hi : isCommand i = false) :
    ∃ inp : Input, (i ≠ .data → inp = s.inp) ∧ t.environment = { s.environment with inp := inp } := by
  cases i with
  | csumClr | csumAdd | csumRd | fmtHdr | fmtDat | fmtEof | seqCfg | seqRun | statRd | reset => cases hi
  | data =>
    obtain ⟨_, heq⟩ := State.ifEnabled_cases hx
    cases heq
    exact ⟨_, fun hne => absurd rfl hne, s.streamingStep_environment params⟩
  | endOfFile =>
    obtain ⟨_, heq⟩ := State.ifEnabled_cases hx
    cases heq
    exact ⟨s.inp, fun _ => rfl, rfl⟩
  | extendedSegmentAddress =>
    obtain ⟨_, _, rfl⟩ := execExtendedSegmentAddress_cases hx
    exact ⟨s.inp, fun _ => rfl, rfl⟩
  | startAddress =>
    obtain ⟨_, heq⟩ := State.ifEnabled_cases hx
    cases heq
    exact ⟨s.inp, fun _ => rfl, State.startStep_environment⟩

/-- A command leaves `OUT` alone if its accepted form does. -/
theorem State.ifAdmitted_out {need : Phase} {accepted : State} (hx : s.ifAdmitted need accepted = .next t)
    (ha : accepted.out = s.out) : t.out = s.out := by
  obtain ⟨code, rfl⟩ | ⟨_, _, rfl⟩ := State.ifAdmitted_cases hx
  · exact s.refuse_out code
  · exact ha

/-- The commands without output (R40). -/
theorem exec_out {i : Instr} (hx : exec i s = .next t)
    (hi : i ∈ [.csumClr, .csumRd, .seqRun, .statRd, .reset] ∨ (∃ b, i = .csumAdd b) ∨
      (∃ initAddr startEn eol, i = .seqCfg initAddr startEn eol)) : t.out = s.out := by
  cases i with
  | csumClr | csumAdd | csumRd | seqCfg => exact State.ifAdmitted_out hx rfl
  | seqRun => exact State.ifAdmitted_out hx (by rw [State.startRun_eq]; rfl)
  | statRd | reset => cases hx; rfl
  | fmtHdr | fmtDat | fmtEof | data | endOfFile | extendedSegmentAddress | startAddress => simp at hi

/-- Settles O48: the steps of the sequencer, `SEQ.RUN`, and the other commands, each by what it does to the
environment. -/
theorem streamsFrame : Obligations.StreamsFrame := by
  intro i s t hx
  refine ⟨exec_out hx, ?_⟩
  cases hi : isCommand i
  · obtain ⟨inp, hinp, henv⟩ := exec_step_environment hx hi
    obtain ⟨hin, hs, hr, hc, ht, hk⟩ := State.environment_eq.1 henv
    exact ⟨fun _ hdata => hin.trans (hinp hdata), fun _ => hs, nofun, fun _ => hr, hc, ht, hk⟩
  · by_cases hrun : i = .seqRun
    · subst hrun
      obtain ⟨w, _, _, henv⟩ := exec_seqRun_environment hx
      obtain ⟨_, _, hr, hc, ht, hk⟩ := State.environment_eq.1 henv
      exact ⟨fun h => absurd rfl h, fun h => absurd rfl h, fun _ => ⟨w, hr⟩, nofun, hc, ht, hk⟩
    · obtain ⟨w, henv⟩ := exec_command_answeredOnce hx hi hrun
      obtain ⟨hin, hs, hr, hc, ht, hk⟩ := State.environment_eq.1 henv
      exact ⟨fun _ _ => hin, fun _ => hs, fun _ => ⟨w, hr⟩, nofun, hc, ht, hk⟩

/-! ### The configuration during a run (R30, R56) -/

/-- Both parts of a concatenation can be read back. -/
theorem append_eq_append {v w : Nat} {a a' : BitVec v} {b b' : BitVec w} (h : a ++ b = a' ++ b') :
    a = a' ∧ b = b' := by
  constructor
  · simpa only [BitVec.extractLsb'_append_eq_left] using congrArg (BitVec.extractLsb' w v) h
  · simpa only [BitVec.extractLsb'_append_eq_right] using congrArg (BitVec.extractLsb' 0 w) h

theorem cfgWord_injective : Function.Injective Cfg.word := by
  rintro ⟨initAddr, startEn, eol⟩ ⟨initAddr', startEn', eol'⟩ h
  obtain ⟨hhigh, rfl⟩ := append_eq_append h
  obtain ⟨rfl, rfl⟩ := append_eq_append hhigh
  rfl

/-- A command word is its operation code above its operand (R75). -/
theorem commandWord_fields (cw : CommandWord) : commandWord (opField cw) (argField cw) = cw :=
  (BitVec.extractLsb'_append_extractLsb'_eq_extractLsb' rfl).trans BitVec.extractLsb'_eq_self

/-- A format's check passes its own instruction, and only with no reserved bit set (R82). -/
theorem checkReserved_ok {fmt : ArgFormat} {arg : BitVec 32} {i j : Instr} (h : checkReserved fmt arg i = .ok j) :
    i = j ∧ arg &&& reservedMask fmt = 0 := by
  unfold checkReserved at h
  split at h
  · cases h
    exact ⟨rfl, ‹_›⟩
  · cases h

/-- `RESET` has one command word (R133). -/
theorem eq_of_decodeCommand_reset {cw : CommandWord} (h : decodeCommand cw = .ok .reset) : cw = 0xF00000000 := by
  unfold decodeCommand at h
  dsimp only at h
  split at h
  case h_10 hop =>
    obtain ⟨_, hmask⟩ := checkReserved_ok h
    have hopField : opField cw = 0xF := BitVec.eq_of_toNat_eq hop
    have hargField : argField cw = 0 := BitVec.and_allOnes.symm.trans hmask
    rw [← commandWord_fields cw, hopField, hargField]
    rfl
  case h_11 => cases h
  all_goals exact nomatch (checkReserved_ok h).1 -- the other operation codes decode to other instructions

/-- During a run or with a record open only `RESET` changes `CFG`: the other command that writes it, `SEQ.CFG`, is
refused (R30, R56). -/
theorem exec_cfg_held {i : Instr} (hx : exec i s = .next t) (hheld : s.seqBusy = true ∨ s.phase = .data)
    (hcfg : t.cfg ≠ s.cfg) : i = .reset ∧ t = s.resetRegisters.respond .ok 0x00 := by
  have hw : Register.cfg ∈ writtenRegisters i := by
    by_contra hw
    exact hcfg (cfgWord_injective (BitVec.eq_of_toNat_eq (accessTableFrame i s t hx .cfg hw)))
  cases i with
  | reset =>
    cases hx
    exact ⟨rfl, rfl⟩
  | seqCfg initAddr startEn eol =>
    obtain ⟨code, rfl⟩ | ⟨hb, hp, _⟩ := State.ifAdmitted_cases hx
    · exact absurd (s.refuse_cfg code) hcfg
    · simp [hb, hp] at hheld
  | csumClr | csumAdd | csumRd | fmtHdr | fmtDat | fmtEof | seqRun | statRd | data | endOfFile
  | extendedSegmentAddress | startAddress => simp [writtenRegisters] at hw

/-- `RESET` is no step of the sequencer (R136). -/
theorem enabledStep_ne_reset (q : SeqState) : q.enabledStep ≠ some .reset := by cases q <;> decide

/-- Settles O52: of the host's words and the steps of the sequencer, only the word of `RESET` can change `CFG`. -/
theorem configurationHeldDuringRun : Obligations.ConfigurationHeldDuringRun := by
  intro s t hx hheld hcfg
  obtain ⟨_, _, rfl⟩ | ⟨cw, rest, hc, _, ⟨i, hd, hexec⟩ | ⟨code, _, rfl⟩⟩ | ⟨i, hi, _, hexec⟩ := step_cases hx
  · exact absurd rfl hcfg
  · obtain ⟨rfl, rfl⟩ := exec_cfg_held hexec hheld hcfg
    rw [eq_of_decodeCommand_reset hd] at hc
    exact ⟨rest, hc, rfl, rfl, rfl⟩
  · exact absurd rfl hcfg
  · obtain ⟨rfl, _⟩ := exec_cfg_held hexec hheld hcfg
    exact absurd hi (enabledStep_ne_reset _)

end Sys2Proof.Machine
end

section
/-! The two encodings of an instruction (30_encoding): the reserved bits of `ARG` as bounds on its value (R77 to R79),
the decoder by operation code (R76, R82), and that decoding and encoding undo each other (R83). -/

namespace Sys2Proof.Machine

open Sys2Proof.Laws.OpcodeOf (opField_commandWord argField_commandWord byteArg_reserved cfgArg_reserved)

variable {arg : BitVec 32} {i j : Instr}

/-! ### Fields of a word as quotients and remainders -/

theorem extractLsb'_eq_ofNat_div {w : Nat} (x : BitVec w) (start len : Nat) :
    x.extractLsb' start len = BitVec.ofNat len (x.toNat / 2 ^ start) := by
  rw [BitVec.extractLsb', Nat.shiftRight_eq_div_pow]

/-- The low bits of a word are its value modulo `2 ^ len`, which `BitVec.ofNat` takes by itself. -/
theorem extractLsb'_zero_eq_ofNat {w : Nat} (x : BitVec w) (len : Nat) :
    x.extractLsb' 0 len = BitVec.ofNat len x.toNat := by
  rw [extractLsb'_eq_ofNat_div, pow_zero, Nat.div_one]

theorem extractLsb'_zero_eq_ofNat_mod {w : Nat} (x : BitVec w) (len : Nat) :
    x.extractLsb' 0 len = BitVec.ofNat len (x.toNat % 2 ^ len) := by
  rw [extractLsb'_zero_eq_ofNat]
  exact BitVec.eq_of_toNat_eq (by simp)

/-- No bit from bit `k` up is set exactly when the value is below `2 ^ k`. -/
theorem and_highBits_eq_zero_iff {w : Nat} (x : BitVec w) (k : Nat) :
    x &&& (BitVec.allOnes w <<< k) = 0 ↔ x.toNat < 2 ^ k := by
  have hle : x.toNat / 2 ^ k * 2 ^ k < 2 ^ w := (Nat.div_mul_le_self _ _).trans_lt x.isLt
  have hval : (x >>> k <<< k).toNat = x.toNat / 2 ^ k * 2 ^ k := by
    rw [BitVec.toNat_shiftLeft, BitVec.toNat_ushiftRight, Nat.shiftRight_eq_div_pow, Nat.shiftLeft_eq,
      Nat.mod_eq_of_lt hle]
  rw [← BitVec.shiftLeft_ushiftRight, ← BitVec.toNat_inj, hval]
  simp [Nat.div_eq_zero_iff]

/-! ### The reserved bits of `ARG` (R77 to R79) -/

theorem reserved_n_iff : arg &&& reservedMask .n = 0 ↔ arg = 0 := by
  rw [show reservedMask .n = BitVec.allOnes 32 from rfl, BitVec.and_allOnes]

theorem reserved_b_iff : arg &&& reservedMask .b = 0 ↔ arg.toNat < 256 :=
  and_highBits_eq_zero_iff arg 8

theorem reserved_h (arg : BitVec 32) : arg &&& reservedMask .h = 0 :=
  BitVec.and_zero

theorem reserved_c_iff : arg &&& reservedMask .c = 0 ↔ arg.toNat < 2 ^ 18 :=
  and_highBits_eq_zero_iff arg 18

/-- The last test of R82 passes. -/
theorem checkReserved_pass {fmt : ArgFormat} (h : arg &&& reservedMask fmt = 0) :
    checkReserved fmt arg i = .ok i :=
  if_pos h

theorem checkReserved_n (arg : BitVec 32) (i : Instr) :
    checkReserved .n arg i = if arg = 0 then .ok i else .error .rsvBits := by
  simp only [checkReserved, reserved_n_iff]

theorem checkReserved_b (arg : BitVec 32) (i : Instr) :
    checkReserved .b arg i = if arg.toNat < 256 then .ok i else .error .rsvBits := by
  simp only [checkReserved, reserved_b_iff]

theorem checkReserved_c (arg : BitVec 32) (i : Instr) :
    checkReserved .c arg i = if arg.toNat < 2 ^ 18 then .ok i else .error .rsvBits := by
  simp only [checkReserved, reserved_c_iff]

/-! ### The operands in `ARG`, read and put back (R77 to R79) -/

/-- The operand of format B is read back. -/
theorem argByte_setWidth (b : Byte) : argByte (b.setWidth 32) = b :=
  (BitVec.extractLsb'_setWidth_of_le (by decide)).trans BitVec.extractLsb'_eq_self

/-- An `ARG` of format B holds its byte only. -/
theorem setWidth_argByte (h : arg &&& reservedMask .b = 0) : (argByte arg).setWidth 32 = arg := by
  rw [reserved_b_iff] at h
  apply BitVec.eq_of_toNat_eq
  rw [argByte, extractLsb'_zero_eq_ofNat, BitVec.toNat_setWidth, BitVec.toNat_ofNat]
  omega

/-- An `ARG` of format H is its three operands. -/
theorem headerArg_append (arg : BitVec 32) :
    arg.extractLsb' 24 8 ++ arg.extractLsb' 8 16 ++ arg.extractLsb' 0 8 = arg := by
  have hhigh : arg.extractLsb' 24 8 ++ arg.extractLsb' 8 16 = arg.extractLsb' 8 24 :=
    BitVec.extractLsb'_append_extractLsb'_eq_extractLsb' rfl
  have hall : arg.extractLsb' 8 24 ++ arg.extractLsb' 0 8 = arg.extractLsb' 0 32 :=
    BitVec.extractLsb'_append_extractLsb'_eq_extractLsb' rfl
  rw [hhigh]
  exact hall.trans BitVec.extractLsb'_eq_self

/-- The high 14 bits of `ARG` and the three operands of format C are the whole of it. -/
theorem cfgArg_append (arg : BitVec 32) :
    arg.extractLsb' 18 14 ++ arg.extractLsb' 17 1 ++ arg.extractLsb' 16 1 ++ arg.extractLsb' 0 16 = arg := by
  have h17 : arg.extractLsb' 18 14 ++ arg.extractLsb' 17 1 = arg.extractLsb' 17 15 :=
    BitVec.extractLsb'_append_extractLsb'_eq_extractLsb' rfl
  have h16 : arg.extractLsb' 17 15 ++ arg.extractLsb' 16 1 = arg.extractLsb' 16 16 :=
    BitVec.extractLsb'_append_extractLsb'_eq_extractLsb' rfl
  have hall : arg.extractLsb' 16 16 ++ arg.extractLsb' 0 16 = arg.extractLsb' 0 32 :=
    BitVec.extractLsb'_append_extractLsb'_eq_extractLsb' rfl
  rw [h17, h16]
  exact hall.trans BitVec.extractLsb'_eq_self

/-- An `ARG` of format C holds its three operands only. -/
theorem cfgArg_append_zero (h : arg &&& reservedMask .c = 0) :
    (0 : BitVec 14) ++ arg.extractLsb' 17 1 ++ arg.extractLsb' 16 1 ++ arg.extractLsb' 0 16 = arg := by
  have hhigh : arg.extractLsb' 18 14 = 0 := by
    rw [extractLsb'_eq_ofNat_div, Nat.div_eq_of_lt (reserved_c_iff.1 h)]
    rfl
  have happ := cfgArg_append arg
  rwa [hhigh] at happ

/-! ### The decoder by operation code (R76, R82) -/

theorem decodeCommand_csumClr (arg : BitVec 32) :
    decodeCommand (commandWord 0x0 arg) = checkReserved .n arg .csumClr := by
  rw [decodeCommand, opField_commandWord, argField_commandWord]; rfl

theorem decodeCommand_csumAdd (arg : BitVec 32) :
    decodeCommand (commandWord 0x1 arg) = checkReserved .b arg (.csumAdd (argByte arg)) := by
  rw [decodeCommand, opField_commandWord, argField_commandWord]; rfl

theorem decodeCommand_csumRd (arg : BitVec 32) :
    decodeCommand (commandWord 0x2 arg) = checkReserved .n arg .csumRd := by
  rw [decodeCommand, opField_commandWord, argField_commandWord]; rfl

theorem decodeCommand_fmtHdr (arg : BitVec 32) :
    decodeCommand (commandWord 0x4 arg) =
      .ok (.fmtHdr (arg.extractLsb' 24 8) (arg.extractLsb' 8 16) (arg.extractLsb' 0 8)) := by
  rw [decodeCommand, opField_commandWord, argField_commandWord]
  exact checkReserved_pass (reserved_h arg)

theorem decodeCommand_fmtDat (arg : BitVec 32) :
    decodeCommand (commandWord 0x5 arg) = checkReserved .b arg (.fmtDat (argByte arg)) := by
  rw [decodeCommand, opField_commandWord, argField_commandWord]; rfl

theorem decodeCommand_fmtEof (arg : BitVec 32) :
    decodeCommand (commandWord 0x6 arg) = checkReserved .n arg .fmtEof := by
  rw [decodeCommand, opField_commandWord, argField_commandWord]; rfl

theorem decodeCommand_seqCfg (arg : BitVec 32) :
    decodeCommand (commandWord 0x8 arg) =
      checkReserved .c arg
        (.seqCfg (arg.extractLsb' 0 16) (arg.extractLsb' 16 1) (arg.extractLsb' 17 1)) := by
  rw [decodeCommand, opField_commandWord, argField_commandWord]; rfl

theorem decodeCommand_seqRun (arg : BitVec 32) :
    decodeCommand (commandWord 0x9 arg) = checkReserved .n arg .seqRun := by
  rw [decodeCommand, opField_commandWord, argField_commandWord]; rfl

theorem decodeCommand_statRd (arg : BitVec 32) :
    decodeCommand (commandWord 0xC arg) = checkReserved .n arg .statRd := by
  rw [decodeCommand, opField_commandWord, argField_commandWord]; rfl

theorem decodeCommand_reset (arg : BitVec 32) :
    decodeCommand (commandWord 0xF arg) = checkReserved .n arg .reset := by
  rw [decodeCommand, opField_commandWord, argField_commandWord]; rfl

/-- The six operation codes that R76 leaves unassigned. -/
def unassignedOps : List (BitVec 4) := [0x3, 0x7, 0xA, 0xB, 0xD, 0xE]

/-- An operation code is one of the ten assigned ones or unassigned (R76). -/
theorem opcode_cases (op : BitVec 4) :
    op = 0x0 ∨ op = 0x1 ∨ op = 0x2 ∨ op = 0x4 ∨ op = 0x5 ∨ op = 0x6 ∨ op = 0x8 ∨ op = 0x9 ∨ op = 0xC ∨
      op = 0xF ∨ op ∈ unassignedOps := by
  revert op; decide

theorem decodeCommand_unassigned {op : BitVec 4} (h : op ∈ unassignedOps) (arg : BitVec 32) :
    decodeCommand (commandWord op arg) = .error .illOp := by
  simp only [unassignedOps, List.mem_cons, List.not_mem_nil, or_false] at h
  rw [decodeCommand, opField_commandWord, argField_commandWord]
  rcases h with rfl | rfl | rfl | rfl | rfl | rfl <;> rfl

/-! ### Decoding and encoding undo each other (R83) -/

/-- Settles O1: the rows without operands are closed words; in the others each operand is read back from its field. -/
theorem decodeInvertsEncode : Obligations.DecodeInvertsEncode := by
  intro i
  cases i with
  | csumClr | csumRd | fmtEof | seqRun | statRd | reset => rfl
  | data | endOfFile | extendedSegmentAddress | startAddress => rfl
  | csumAdd b =>
    rw [encode, decode, decodeCommand_csumAdd, checkReserved_pass (byteArg_reserved b), argByte_setWidth]
  | fmtDat b =>
    rw [encode, decode, decodeCommand_fmtDat, checkReserved_pass (byteArg_reserved b), argByte_setWidth]
  | fmtHdr count addr type =>
    obtain ⟨hhigh, htype⟩ := append_eq_append (headerArg_append (count ++ addr ++ type))
    obtain ⟨hcount, haddr⟩ := append_eq_append hhigh
    rw [encode, decode, decodeCommand_fmtHdr, hcount, haddr, htype]
  | seqCfg initAddr startEn eol =>
    obtain ⟨hhigh, haddr⟩ := append_eq_append (cfgArg_append ((0 : BitVec 14) ++ eol ++ startEn ++ initAddr))
    obtain ⟨hhigh, hstart⟩ := append_eq_append hhigh
    obtain ⟨_, heol⟩ := append_eq_append hhigh
    rw [encode, decode, decodeCommand_seqCfg, checkReserved_pass (cfgArg_reserved initAddr startEn eol), haddr,
      hstart, heol]

/-- What format N accepts is the word of its instruction, whose `ARG` is 0. -/
theorem encode_of_checkReserved_n {op : BitVec 4} (hi : encode i = .command (commandWord op 0))
    (h : checkReserved .n arg i = .ok j) : encode j = .command (commandWord op arg) := by
  obtain ⟨rfl, hmask⟩ := checkReserved_ok h
  rw [hi, reserved_n_iff.1 hmask]

/-- What format B accepts is the word of its instruction, whose `ARG` is the operand zero-extended. -/
theorem encode_of_checkReserved_b {op : BitVec 4}
    (hi : encode i = .command (commandWord op ((argByte arg).setWidth 32)))
    (h : checkReserved .b arg i = .ok j) : encode j = .command (commandWord op arg) := by
  obtain ⟨rfl, hmask⟩ := checkReserved_ok h
  rw [hi, setWidth_argByte hmask]

/-- An accepted command word is the word of its instruction. -/
theorem encode_of_decodeCommand {op : BitVec 4} (h : decodeCommand (commandWord op arg) = .ok i) :
    encode i = .command (commandWord op arg) := by
  rcases opcode_cases op with rfl | rfl | rfl | rfl | rfl | rfl | rfl | rfl | rfl | rfl | hop
  · exact encode_of_checkReserved_n rfl ((decodeCommand_csumClr arg).symm.trans h)
  · exact encode_of_checkReserved_b rfl ((decodeCommand_csumAdd arg).symm.trans h)
  · exact encode_of_checkReserved_n rfl ((decodeCommand_csumRd arg).symm.trans h)
  · rw [decodeCommand_fmtHdr] at h
    cases h
    rw [encode, headerArg_append]
  · exact encode_of_checkReserved_b rfl ((decodeCommand_fmtDat arg).symm.trans h)
  · exact encode_of_checkReserved_n rfl ((decodeCommand_fmtEof arg).symm.trans h)
  · rw [decodeCommand_seqCfg] at h
    obtain ⟨rfl, hmask⟩ := checkReserved_ok h
    rw [encode, cfgArg_append_zero hmask]
  · exact encode_of_checkReserved_n rfl ((decodeCommand_seqRun arg).symm.trans h)
  · exact encode_of_checkReserved_n rfl ((decodeCommand_statRd arg).symm.trans h)
  · exact encode_of_checkReserved_n rfl ((decodeCommand_reset arg).symm.trans h)
  · rw [decodeCommand_unassigned hop] at h
    cases h

/-- Settles O5: the four types of R70, each on its own byte. -/
theorem recordTypesDecode : Obligations.RecordTypesDecode := by
  intro type
  split_ifs with h0 h1 h2 h4
  · rw [h0]; rfl
  · rw [h1]; rfl
  · rw [h2]; rfl
  · rw [h4]; rfl
  · simp only [← BitVec.toNat_inj] at h0 h1 h2 h4
    unfold decodeRecordType
    split
    case h_5 => rfl
    all_goals contradiction

/-- Settles O2: a word by its operation code, a record type by its byte. -/
theorem encodeInvertsDecode : Obligations.EncodeInvertsDecode := by
  intro e i h
  cases e with
  | command cw =>
    rw [← commandWord_fields cw] at h ⊢
    exact encode_of_decodeCommand h
  | recordType type =>
    rw [decode, recordTypesDecode type] at h
    split_ifs at h with h0 h1 h2 h4 <;> cases h
    · rw [h0]; rfl
    · rw [h1]; rfl
    · rw [h2]; rfl
    · rw [h4]; rfl

/-- Settles O3: the decoder by operation code, its fields and tests as numbers. -/
theorem decodingIsTheProcedure : Obligations.DecodingIsTheProcedure := by
  intro op arg
  rcases opcode_cases op with rfl | rfl | rfl | rfl | rfl | rfl | rfl | rfl | rfl | rfl | hop
  · rw [decodeCommand_csumClr, checkReserved_n]; rfl
  · rw [decodeCommand_csumAdd, checkReserved_b, argByte, extractLsb'_zero_eq_ofNat]; rfl
  · rw [decodeCommand_csumRd, checkReserved_n]; rfl
  · rw [decodeCommand_fmtHdr, extractLsb'_zero_eq_ofNat, extractLsb'_eq_ofNat_div, extractLsb'_eq_ofNat_div]; rfl
  · rw [decodeCommand_fmtDat, checkReserved_b, argByte, extractLsb'_zero_eq_ofNat]; rfl
  · rw [decodeCommand_fmtEof, checkReserved_n]; rfl
  · rw [decodeCommand_seqCfg, checkReserved_c, extractLsb'_zero_eq_ofNat, extractLsb'_eq_ofNat_div,
      extractLsb'_eq_ofNat_div]; rfl
  · rw [decodeCommand_seqRun, checkReserved_n]; rfl
  · rw [decodeCommand_statRd, checkReserved_n]; rfl
  · rw [decodeCommand_reset, checkReserved_n]; rfl
  · rw [decodeCommand_unassigned hop]
    simp only [unassignedOps, List.mem_cons, List.not_mem_nil, or_false] at hop
    rcases hop with rfl | rfl | rfl | rfl | rfl | rfl <;> rfl

/-- Settles O4: ten closed words. -/
theorem writtenWordsDecode : Obligations.WrittenWordsDecode := by
  unfold Obligations.WrittenWordsDecode
  decide

end Sys2Proof.Machine
end

section
/-! The characters of a line (30_encoding): the digits (R65, R66), the terminators (R68), the places of the characters
(R62, R63), the fixed texts (R71, R97), and that nothing else is ever appended to `OUT` (R45, R64). -/

namespace Sys2Proof.Machine

variable {s t : State}

/-! ### The digits (R65, R66) -/

theorem hexDigit_toNat (n : BitVec 4) :
    (hexDigit n).toNat = if n.toNat ≤ 9 then 0x30 + n.toNat else 0x41 + (n.toNat - 10) := by
  revert n; decide

/-- A digit's code is read back as its value. -/
theorem digitValue_hexDigit (n : BitVec 4) : digitValue (hexDigit n) = some n.toNat := by
  revert n; decide

/-- The pair of a byte by its nibbles as numbers. -/
theorem hex2_eq_digits (b : Byte) :
    hex2 b = [hexDigit (BitVec.ofNat 4 (b.toNat / 16)), hexDigit (BitVec.ofNat 4 (b.toNat % 16))] := by
  rw [hex2, extractLsb'_eq_ofNat_div, extractLsb'_zero_eq_ofNat_mod]; rfl

/-- A pair in front of other characters is read back as its byte. -/
theorem readPairs_hex2_append (b : Byte) (cs : List Byte) :
    readPairs (hex2 b ++ cs) = (readPairs cs).map (b :: ·) := by
  have hhigh : (BitVec.ofNat 4 (b.toNat / 16)).toNat = b.toNat / 16 := by
    rw [BitVec.toNat_ofNat]; omega
  have hlow : (BitVec.ofNat 4 (b.toNat % 16)).toNat = b.toNat % 16 := by
    rw [BitVec.toNat_ofNat]; omega
  rw [hex2_eq_digits, List.cons_append, List.cons_append, List.nil_append, readPairs, digitValue_hexDigit,
    digitValue_hexDigit, hhigh, hlow]
  cases readPairs cs <;> simp [Nat.div_add_mod]

/-- Settles O22: the digits' codes, the nibbles of a byte, and the four examples. -/
theorem hexPairIsTwoDigits : Obligations.HexPairIsTwoDigits := by
  refine ⟨hexDigit_toNat, fun b => ⟨hex2_eq_digits b, ?_⟩, by decide, by decide, by decide, by decide⟩
  simpa [readPairs] using readPairs_hex2_append b []

/-! ### The terminators (R68) -/

theorem eol_zero : eol 0 = [0x0A] := rfl

theorem eol_one : eol 1 = [0x0D, 0x0A] := rfl

/-- Settles O29: `CFG.EOL` is one bit, and 0 after reset. -/
theorem terminatorOfConfiguration : Obligations.TerminatorOfConfiguration := by
  refine ⟨eol_zero, eol_one, fun e => ?_, eol_zero⟩
  obtain rfl | rfl : e = 0 ∨ e = 1 := BitVec.eq_zero_or_eq_one e
  · exact .inl eol_zero
  · exact .inr eol_one

/-! ### The places of the characters of a line (R62, R63) -/

/-- The bytes of an address by its value, high byte first (R61). -/
theorem headerBytes_eq (count : Byte) (addr : BitVec 16) (type : Byte) :
    headerBytes count addr type =
      [count, BitVec.ofNat 8 (addr.toNat / 256), BitVec.ofNat 8 (addr.toNat % 256), type] := by
  rw [headerBytes, extractLsb'_eq_ofNat_div, extractLsb'_zero_eq_ofNat_mod]; rfl

/-- A line is its nine leading characters, the pairs of its data, and the checksum's pair (R62). -/
theorem line_eq (count : Byte) (addr : BitVec 16) (type : Byte) (data : List Byte) :
    line count addr type data =
      (colon :: hexPairs (headerBytes count addr type)) ++
        (hexPairs data ++ hex2 (checksum (recordBytes count addr type data))) := by
  simp [line, recordBytes]

@[simp] theorem line_length (count : Byte) (addr : BitVec 16) (type : Byte) (data : List Byte) :
    (line count addr type data).length = 11 + 2 * data.length := by
  simp [line_eq]; omega

/-- The nine leading characters. -/
theorem line_take_nine (count : Byte) (addr : BitVec 16) (type : Byte) (data : List Byte) :
    (line count addr type data).take 9 = colon :: hexPairs (headerBytes count addr type) := by
  rw [line_eq]
  exact List.take_left' (by simp)

/-- What is left of a line after its nine leading characters and the pairs of `i` data bytes. -/
theorem line_drop (count : Byte) (addr : BitVec 16) (type : Byte) {data : List Byte} {i : Nat}
    (h : i ≤ data.length) :
    (line count addr type data).drop (9 + 2 * i) =
      hexPairs (data.drop i) ++ hex2 (checksum (recordBytes count addr type data)) := by
  have hpairs : hexPairs data = hexPairs (data.take i) ++ hexPairs (data.drop i) := by
    rw [← hexPairs_append, List.take_append_drop]
  rw [line_eq, hpairs, List.append_assoc, ← List.append_assoc]
  exact List.drop_left' (by simp [h]; omega)

/-- Settles O23: the nine leading characters, and what is left of the line after the pairs before each place. -/
theorem lineCharacterPositions : Obligations.LineCharacterPositions := by
  intro count addr type data hlen
  refine ⟨by rw [line_length, hlen], ?_, fun i hi => ?_, ?_⟩
  · rw [line_take_nine, headerBytes_eq]
    simp [colon]
  · rw [line_drop _ _ _ hi.le, List.drop_eq_getElem_cons hi, hexPairs_cons, List.append_assoc]
    exact List.take_left' (hex2_length _)
  · rw [← hlen, line_drop _ _ _ le_rfl, List.drop_length, hexPairs_nil, List.nil_append]

/-! ### The fixed texts (R71, R97) -/

/-- Settles O25: three closed lines, and the segment line by its bytes. -/
theorem fixedRecordTexts : Obligations.FixedRecordTexts := by
  refine ⟨by decide, by decide, by decide, fun n => ?_⟩
  have hheader : headerBytes 2 0x0000 0x02 = [0x02, 0x00, 0x00, 0x02] := by decide
  have hnine : colon :: hexPairs [0x02, 0x00, 0x00, 0x02] =
      [0x3A, 0x30, 0x32, 0x30, 0x30, 0x30, 0x30, 0x30, 0x32] := by decide
  rw [line_eq, recordBytes, hheader, hnine]
  simp [bigEndian]

/-! ### What is appended to `OUT` (R45, R64) -/

/-- `t` has the output of `s` with characters of the 19 codes after it. -/
def State.AppendsListed (s t : State) : Prop :=
  ∃ cs : List Byte, t.out = s.out ++ cs ∧ ∀ c ∈ cs, c ∈ outputCodes

namespace State.AppendsListed

theorem of_out_eq (h : t.out = s.out) : s.AppendsListed t :=
  ⟨[], by rw [h, List.append_nil], nofun⟩

theorem trans {u : State} (hst : s.AppendsListed t) (htu : t.AppendsListed u) : s.AppendsListed u := by
  obtain ⟨cs, ht, hcs⟩ := hst
  obtain ⟨ds, hu, hds⟩ := htu
  exact ⟨cs ++ ds, by rw [hu, ht, List.append_assoc], List.forall_mem_append.2 ⟨hcs, hds⟩⟩

theorem emitAll (s : State) {cs : List Byte} (h : ∀ c ∈ cs, c ∈ outputCodes) : s.AppendsListed (s.emitAll cs) :=
  ⟨cs, rfl, h⟩

theorem closeRecord (s : State) : s.AppendsListed s.closeRecord :=
  emitAll s (List.forall_mem_append.2
    ⟨fun _ h => hexCodes_subset_outputCodes (hex2_mem h), fun _ => eol_mem⟩)

theorem openRecord (s : State) (count : Byte) (addr : BitVec 16) (type : Byte) :
    s.AppendsListed (s.openRecord count addr type) := by
  have hheader := emitAll (s.setAcc (sum8 (headerBytes count addr type)))
    (cs := colon :: hexPairs (headerBytes count addr type))
    (List.forall_mem_cons.2
      ⟨colon_mem_outputCodes, fun _ h => hexCodes_subset_outputCodes (hexPairs_mem h)⟩)
  obtain ⟨_, heq⟩ | ⟨_, heq⟩ := s.openRecord_cases count addr type <;> rw [heq]
  · exact hheader.trans (closeRecord _)
  · exact hheader

theorem takeDataByte (s : State) (b : Byte) : s.AppendsListed (s.takeDataByte b) := by
  have hpair := emitAll s (cs := hex2 b) fun _ h => hexCodes_subset_outputCodes (hex2_mem h)
  obtain ⟨_, heq⟩ | ⟨_, heq⟩ := s.takeDataByte_cases b <;> rw [heq]
  · exact trans hpair (closeRecord _)
  · exact hpair

theorem emitEof (s : State) : s.AppendsListed s.emitEof :=
  emitAll s (List.forall_mem_append.2 ⟨by decide, fun _ => eol_mem⟩)

theorem emitRecord (s : State) (count : Byte) (addr : BitVec 16) (type : Byte) (data : List Byte) :
    s.AppendsListed (s.emitRecord count addr type data) :=
  emitAll s fun _ => formatRecord_mem

theorem startStep (s : State) : s.AppendsListed s.startStep := by
  unfold State.startStep
  split
  · exact emitRecord s _ _ _ _
  · exact of_out_eq rfl

theorem streamingStep (s : State) (p : Params) : s.AppendsListed (s.streamingStep p) := by
  obtain ⟨_, heq⟩ | ⟨_, _, heq⟩ | ⟨_, _, heq⟩ | ⟨_, heq⟩ := s.streamingStep_cases p <;> rw [heq]
  · exact of_out_eq rfl
  · exact of_out_eq rfl
  · exact emitRecord _ _ _ _ _
  · rw [State.advance_eq]
    exact emitRecord _ _ _ _ _

/-- A command appends listed codes if its accepted form does: a refusal appends nothing (R165). -/
theorem ifAdmitted {need : Phase} {accepted : State} (hx : s.ifAdmitted need accepted = .next t)
    (ha : s.AppendsListed accepted) : s.AppendsListed t := by
  obtain ⟨code, rfl⟩ | ⟨_, _, rfl⟩ := State.ifAdmitted_cases hx
  · exact of_out_eq (s.refuse_out code)
  · exact ha

/-- A step of the sequencer appends listed codes if its body does. -/
theorem ifEnabled {need : SeqState} {taken : State} (hx : s.ifEnabled need (.next taken) = .next t)
    (ha : s.AppendsListed taken) : s.AppendsListed t := by
  obtain ⟨_, heq⟩ := State.ifEnabled_cases hx
  cases heq
  exact ha

theorem exec {i : Instr} (hx : exec i s = .next t) : s.AppendsListed t := by
  cases i with
  | csumClr | csumAdd | csumRd | seqCfg | seqRun | statRd | reset => exact of_out_eq (exec_out hx (by simp))
  | fmtHdr count addr type =>
    refine ifAdmitted hx ?_
    split
    · exact openRecord s count addr type
    · exact of_out_eq (s.refuse_out _)
  | fmtDat b => exact ifAdmitted hx (takeDataByte s b)
  | fmtEof => exact ifAdmitted hx (emitEof s)
  | data => exact ifEnabled hx (streamingStep s params)
  | endOfFile => exact ifEnabled hx (emitEof s)
  | extendedSegmentAddress =>
    obtain ⟨_, _, rfl⟩ := execExtendedSegmentAddress_cases hx
    exact emitRecord _ _ _ _ _
  | startAddress => exact ifEnabled hx (startStep s)

end State.AppendsListed

/-- Settles O49: fetching appends nothing, a refusal appends nothing, and every instruction appends listed codes. -/
theorem outputAppendsOnlyListedCodes : Obligations.OutputAppendsOnlyListedCodes := by
  intro s t hx
  obtain ⟨_, _, rfl⟩ | ⟨_, _, _, _, ⟨_, _, hexec⟩ | ⟨_, _, rfl⟩⟩ | ⟨_, _, _, hexec⟩ := step_cases hx
  · exact State.AppendsListed.of_out_eq rfl
  · exact (State.AppendsListed.exec hexec :)
  · exact State.AppendsListed.of_out_eq rfl
  · exact (State.AppendsListed.exec hexec :)

end Sys2Proof.Machine
end

section
/-! The checksum accumulator (40_checksum): the arithmetic of `Sum8`, `Neg8` and `Checksum` (R90 to R96), commands in
sequence (R84), and the commands `CSUM.CLR`, `CSUM.ADD`, `CSUM.RD` and `CSUM.OF` (R98 to R101). -/

namespace Sys2Proof.Machine

/-! ### The sum of bytes (R90, R96) -/

/-- The reduction modulo 256 is that of the byte's own width. -/
theorem sum8_eq_ofNat (s : List Byte) : sum8 s = BitVec.ofNat 8 (byteSum s) :=
  BitVec.eq_of_toNat_eq (by simp)

@[simp] theorem sum8_nil : sum8 [] = 0 := rfl

theorem sum8_append (s t : List Byte) : sum8 (s ++ t) = sum8 s + sum8 t := by
  rw [sum8_eq_ofNat, byteSum_append, BitVec.ofNat_add, ← sum8_eq_ofNat, ← sum8_eq_ofNat]

theorem sum8_cons (b : Byte) (s : List Byte) : sum8 (b :: s) = b + sum8 s := by
  rw [sum8_eq_ofNat, byteSum_cons, BitVec.ofNat_add, ← sum8_eq_ofNat, BitVec.ofNat_toNat, BitVec.setWidth_eq]

theorem byteSum_perm {s t : List Byte} (h : s.Perm t) : byteSum s = byteSum t :=
  (h.map BitVec.toNat).sum_nat

/-! ### The negation of a byte (R93) -/

theorem neg8_eq_neg (a : Byte) : neg8 a = -a :=
  BitVec.zero_sub a

theorem neg8_toNat (a : Byte) : (neg8 a).toNat = (256 - a.toNat) % 256 := by
  rw [neg8_eq_neg]
  exact BitVec.toNat_neg a

/-- The two's complement form. -/
theorem neg8_eq_xor_add_one (a : Byte) : neg8 a = (a ^^^ 0xFF) + 1 := by
  have hxor : a ^^^ 0xFF = ~~~a := BitVec.xor_allOnes
  rw [hxor, neg8_eq_neg]
  exact BitVec.neg_eq_not_add a

theorem neg8_neg8 (a : Byte) : neg8 (neg8 a) = a := by
  rw [neg8_eq_neg, neg8_eq_neg, BitVec.neg_neg]

theorem add_neg8 (a : Byte) : a + neg8 a = 0 := by
  rw [neg8_eq_neg]
  exact BitVec.add_right_neg a

/-! ### The checksum (R91, R92, R94) -/

/-- The document's second form is `Neg8` of the sum. -/
theorem checksum_eq_neg8_sum8 (s : List Byte) : checksum s = neg8 (sum8 s) := by
  have hlt : byteSum s % 256 < 256 := Nat.mod_lt _ (by decide)
  have hforms : 0xFF - byteSum s % 256 + 1 = 256 - byteSum s % 256 := by omega
  apply BitVec.eq_of_toNat_eq
  rw [checksum, hforms, neg8_toNat, sum8_toNat, BitVec.toNat_ofNat]
  exact Nat.mod_mod _ _

/-- The document's first form, in a register of any width that holds a byte: the low byte of a negation depends on
the low byte only. -/
theorem setWidth_not_byteSum_add_one (s : List Byte) {w : Nat} (hw : 8 ≤ w) :
    (~~~(BitVec.ofNat w (byteSum s)) + 1).setWidth 8 = checksum s := by
  calc (~~~(BitVec.ofNat w (byteSum s)) + 1).setWidth 8
    _ = (-BitVec.ofNat w (byteSum s)).setWidth 8 :=
        congrArg (BitVec.setWidth 8) (BitVec.neg_eq_not_add _).symm
    _ = -(BitVec.ofNat w (byteSum s)).setWidth 8 := BitVec.setWidth_neg_of_le hw
    _ = -sum8 s := by rw [BitVec.setWidth_ofNat_of_le hw, sum8_eq_ofNat]
    _ = checksum s := by rw [checksum_eq_neg8_sum8, neg8_eq_neg]

/-- Settles O14: the second form is `Neg8` of the sum, and the first form narrows to it. -/
theorem checksumFormsAgree : Obligations.ChecksumFormsAgree :=
  fun s _ hw => ⟨setWidth_not_byteSum_add_one s hw, checksum_eq_neg8_sum8 s⟩

/-- Settles O15: the forms of `Neg8`, and twelve closed values. -/
theorem negationOfByte : Obligations.NegationOfByte :=
  ⟨fun a => ⟨neg8_toNat a, neg8_eq_xor_add_one a, neg8_neg8 a, add_neg8 a⟩,
    rfl, rfl, rfl, rfl, rfl, rfl, rfl, rfl, rfl, rfl, rfl, rfl, checksum_eq_neg8_sum8⟩

/-- Settles O16: the sum of the whole is `sum8 s + b`, which is 0 for the negation of `sum8 s` only. -/
theorem checksumVerifiesItself : Obligations.ChecksumVerifiesItself := by
  intro s b
  rw [sum8_snoc, checksum_eq_neg8_sum8, neg8_eq_neg]
  exact add_eq_zero_iff_eq_neg'

/-- Settles O17: each law is one of the sum of the bytes. -/
theorem sumLaws : Obligations.SumLaws := by
  refine ⟨fun s t => ?_, fun s t h => ?_, fun s => ?_⟩
  · rw [sum8_append]
    exact BitVec.toNat_add _ _
  · have hsum : sum8 s = sum8 t := by rw [sum8, byteSum_perm h, sum8]
    rw [checksum_eq_neg8_sum8, checksum_eq_neg8_sum8, hsum]
    exact ⟨rfl, rfl⟩
  · rw [sum8_snoc]
    exact BitVec.add_zero _

/-! ### Commands in sequence (R84) and their admission (R166) -/

variable {s t : State}

@[simp] theorem execAll_nil : execAll [] s = .next s := rfl

theorem execAll_cons {i : Instr} (h : exec i s = .next t) (rest : List Instr) :
    execAll (i :: rest) s = execAll rest t := by
  rw [execAll, h]

theorem execAll_append {is : List Instr} (h : execAll is s = .next t) (js : List Instr) :
    execAll (is ++ js) s = execAll js t := by
  induction is generalizing s with
  | nil => cases h; rfl
  | cons i is ih =>
    rw [execAll] at h
    split at h
    case h_1 u hu => rw [List.cons_append, execAll_cons hu, ih h]
    case h_2 | h_3 => cases h

/-- A command that passes the admission tests only in phase `need` is refused outside it, whatever it does when
accepted (R165, R168). -/
theorem refusedOutside_of_ifAdmitted {need : Phase} {i : Instr} {accepted : State → State}
    (h : ∀ s, exec i s = s.ifAdmitted need (accepted s)) : RefusedOutside need i :=
  fun s => ⟨fun hb => (h s).trans (State.ifAdmitted_busy hb),
    fun hb hp => (h s).trans (State.ifAdmitted_badPhase hb hp)⟩

/-- The response word of an `OK` is its data (R80). -/
theorem responseWord_ok (data : Byte) : responseWord .ok data = data.setWidth 12 :=
  (BitVec.setWidth_eq_append (w := 12) (by decide)).symm

/-- `OP` and `ARG` of a command word as one number (R75). -/
theorem commandWord_toNat (op : BitVec 4) (arg : BitVec 32) :
    (commandWord op arg).toNat = op.toNat * 2 ^ 32 + arg.toNat := by
  rw [commandWord, BitVec.toNat_append, ← Nat.shiftLeft_add_eq_or_of_lt arg.isLt, Nat.shiftLeft_eq]

/-! ### The commands of the accumulator (R98 to R100) -/

theorem exec_csumClr_accepted (hb : s.seqBusy = false) (hp : s.phase = .idle) :
    exec .csumClr s = .next { s with acc := 0, rsps := s.rsps ++ [0x000] } :=
  State.ifAdmitted_accepted hb hp

theorem exec_csumAdd_accepted (b : Byte) (hb : s.seqBusy = false) (hp : s.phase = .idle) :
    exec (.csumAdd b) s = .next { s with acc := s.acc + b, rsps := s.rsps ++ [0x000] } :=
  State.ifAdmitted_accepted hb hp

theorem exec_csumRd_accepted (hb : s.seqBusy = false) (hp : s.phase = .idle) :
    exec .csumRd s = .next { s with rsps := s.rsps ++ [(neg8 s.acc).setWidth 12] } := by
  rw [← responseWord_ok]
  exact State.ifAdmitted_accepted hb hp

/-- Settles O18: the encoding is a closed word, and any other `ARG` has a reserved bit set. -/
theorem csumClrClears : Obligations.CsumClrClears := by
  refine ⟨rfl, fun arg harg => ?_, refusedOutside_of_ifAdmitted fun _ => rfl, fun s => exec_csumClr_accepted⟩
  rw [decodeCommand_csumClr, checkReserved_n, if_neg harg]

/-- The word of `CSUM.ADD b` as a sum (R99). -/
theorem encode_csumAdd (b : Byte) : encode (.csumAdd b) = .command (0x100000000 + b.setWidth 36) := by
  have hb : b.toNat < 256 := b.isLt
  refine congrArg Encoding.command (BitVec.eq_of_toNat_eq ?_)
  rw [commandWord_toNat]
  simp
  omega

/-- An `ARG` with a bit above its byte is no byte (R77). -/
theorem not_lt_of_highBits_ne_zero {arg : BitVec 32} (h : arg.extractLsb' 8 24 ≠ 0) : ¬ arg.toNat < 256 := by
  intro hlt
  apply h
  have hdiv : arg.toNat / 2 ^ 8 = 0 := Nat.div_eq_of_lt hlt
  rw [extractLsb'_eq_ofNat_div, hdiv]
  rfl

/-- Settles O19: the addition of bytes is the addition modulo 256. -/
theorem csumAddAdds : Obligations.CsumAddAdds := by
  refine ⟨encode_csumAdd, fun arg harg => ?_, fun b => refusedOutside_of_ifAdmitted fun _ => rfl,
    fun b s hb hp => ?_⟩
  · rw [decodeCommand_csumAdd, checkReserved_b, if_neg (not_lt_of_highBits_ne_zero harg)]
  · have hadd : BitVec.ofNat 8 ((s.acc.toNat + b.toNat) % 256) = s.acc + b := BitVec.eq_of_toNat_eq (by simp)
    rw [hadd]
    exact exec_csumAdd_accepted b hb hp

/-- Settles O20: as `CSUM.CLR`, with the negation of `ACC` as the response's data. -/
theorem csumRdAnswers : Obligations.CsumRdAnswers := by
  refine ⟨rfl, fun arg harg => ?_, refusedOutside_of_ifAdmitted fun _ => rfl, fun s hb hp => ?_⟩
  · rw [decodeCommand_csumRd, checkReserved_n, if_neg harg]
  · rw [exec_csumRd_accepted hb hp, ← neg8_toNat, BitVec.ofNat_toNat]

/-! ### `CSUM.OF` (R101) -/

/-- The additions of `CSUM.OF`, from any contents of `ACC`. -/
theorem execAll_csumAdd (bytes : List Byte) (hb : s.seqBusy = false) (hp : s.phase = .idle) :
    execAll (bytes.map .csumAdd) s =
      .next { s with acc := s.acc + sum8 bytes, rsps := s.rsps ++ List.replicate bytes.length 0x000 } := by
  induction bytes generalizing s with
  | nil => simp
  | cons b bytes ih =>
    have hrest := ih (s := { s with acc := s.acc + b, rsps := s.rsps ++ [0x000] }) hb hp
    rw [List.map_cons, execAll_cons (exec_csumAdd_accepted b hb hp), hrest]
    simp [sum8_cons, BitVec.add_assoc, List.replicate_succ]

/-- Settles O21: the clear leaves 0, the additions leave the sum, and the read answers its negation. -/
theorem csumOfComputesChecksum : Obligations.CsumOfComputesChecksum := by
  intro s bytes hb hp
  have hadds := execAll_csumAdd (s := { s with acc := 0, rsps := s.rsps ++ [0x000] }) bytes hb hp
  have hread := exec_csumRd_accepted (s := { s with
    acc := 0 + sum8 bytes, rsps := s.rsps ++ [0x000] ++ List.replicate bytes.length 0x000 }) hb hp
  rw [csumOf, execAll_cons (exec_csumClr_accepted hb hp), execAll_append hadds, execAll_cons hread, execAll_nil]
  simp [checksum_eq_neg8_sum8, List.replicate_succ]

end Sys2Proof.Machine
end

section
/-! The record formatter (41_formatter): a line read back (R116), what `FMT.HDR`, `FMT.DAT` and `FMT.EOF` do when they
are accepted (R112 to R114), one record through the port (R115), and that `ACC` carries nothing from one record into
the next (R184). -/

namespace Sys2Proof.Machine

variable {s : State}

/-! ### A line read back (R116) -/

/-- Pairs of digits are read back as their bytes. -/
theorem readPairs_hexPairs (bytes : List Byte) : readPairs (hexPairs bytes) = some bytes := by
  induction bytes with
  | nil => rfl
  | cons b bytes ih => rw [hexPairs_cons, readPairs_hex2_append, ih, Option.map_some]

/-- A line is a colon and the pairs of its record's bytes and their checksum (R62). -/
theorem line_eq_colon_hexPairs (count : Byte) (addr : BitVec 16) (type : Byte) (data : List Byte) :
    line count addr type data =
      colon :: hexPairs (recordBytes count addr type data ++ [checksum (recordBytes count addr type data)]) := by
  simp [line]

/-- Settles O24: the characters after the colon are the pairs of the record's bytes and their checksum. -/
theorem lineReadsBack : Obligations.LineReadsBack := by
  intro count addr type data hlen
  refine ⟨_, line_eq_colon_hexPairs count addr type data, fun c => hexPairs_mem, ?_, readPairs_hexPairs _,
    (checksumVerifiesItself _ _).2 rfl⟩
  rw [hexPairs_length, List.length_append, recordBytes_length, List.length_singleton, hlen]
  omega

/-! ### The encodings of the formatter's commands (R112, R113) -/

/-- The operands of format H as one number (R78). -/
theorem headerArg_toNat (count : Byte) (addr : BitVec 16) (type : Byte) :
    (count ++ addr ++ type).toNat = count.toNat * 2 ^ 24 + addr.toNat * 2 ^ 8 + type.toNat := by
  rw [BitVec.toNat_append, ← Nat.shiftLeft_add_eq_or_of_lt type.isLt, BitVec.toNat_append,
    ← Nat.shiftLeft_add_eq_or_of_lt addr.isLt, Nat.shiftLeft_eq, Nat.shiftLeft_eq]
  omega

/-- The word of `FMT.HDR` as a sum (R112). -/
theorem encode_fmtHdr (count : Byte) (addr : BitVec 16) (type : Byte) :
    encode (.fmtHdr count addr type) =
      .command (BitVec.ofNat 36 (0x4 * 2 ^ 32 + count.toNat * 2 ^ 24 + addr.toNat * 2 ^ 8 + type.toNat)) := by
  refine congrArg Encoding.command (BitVec.eq_of_toNat_eq ?_)
  have hword := commandWord_toNat 0x4 (count ++ addr ++ type)
  rw [headerArg_toNat, ← Nat.add_assoc, ← Nat.add_assoc] at hword
  rw [hword, BitVec.toNat_ofNat, Nat.mod_eq_of_lt (hword ▸ (commandWord 0x4 _).isLt)]
  rfl

/-- A word of format B is the word of its operation code plus its byte (R77). -/
theorem commandWord_byteArg (op : BitVec 4) (b : Byte) :
    commandWord op (b.setWidth 32) = commandWord op 0 + b.setWidth 36 := by
  have hop : op.toNat < 16 := op.isLt
  have hzero : (0 : BitVec 32).toNat = 0 := rfl
  have hb : b.toNat < 256 := b.isLt
  apply BitVec.eq_of_toNat_eq
  rw [BitVec.toNat_add, commandWord_toNat, commandWord_toNat, BitVec.toNat_setWidth, BitVec.toNat_setWidth,
    hzero]
  omega

/-- The word of `FMT.DAT b` as a sum (R113). -/
theorem encode_fmtDat (b : Byte) : encode (.fmtDat b) = .command (0x500000000 + b.setWidth 36) :=
  congrArg Encoding.command (commandWord_byteArg 0x5 b)

/-! ### `FMT.HDR` (R112) -/

theorem typeAccepted_iff {type : Byte} : typeAccepted type = true ↔ type ∈ recordTypes :=
  List.contains_iff_mem

/-- A header with a reserved type, past the admission tests. -/
theorem exec_fmtHdr_reserved {count : Byte} {addr : BitVec 16} {type : Byte} (hb : s.seqBusy = false)
    (hp : s.phase = .idle) (ht : type ∉ recordTypes) :
    exec (.fmtHdr count addr type) s = .next (s.answered 0x400) :=
  (State.ifAdmitted_accepted hb hp).trans (congrArg _ (if_neg (mt typeAccepted_iff.1 ht)))

/-- An accepted header. -/
theorem exec_fmtHdr_accepted {count : Byte} {addr : BitVec 16} {type : Byte} (hb : s.seqBusy = false)
    (hp : s.phase = .idle) (ht : type ∈ recordTypes) :
    exec (.fmtHdr count addr type) s = .next ((s.openRecord count addr type).respond .ok 0x00) :=
  (State.ifAdmitted_accepted hb hp).trans (congrArg _ (if_pos (typeAccepted_iff.2 ht)))

/-- A header without data opens and closes its record at once; the phase stays as it was. -/
theorem exec_fmtHdr_empty {addr : BitVec 16} {type : Byte} (hb : s.seqBusy = false) (hp : s.phase = .idle)
    (ht : type ∈ recordTypes) :
    exec (.fmtHdr 0 addr type) s = .next { s with
      acc := sum8 (headerBytes 0 addr type)
      rem := 0
      out := s.out ++ (colon :: hexPairs (headerBytes 0 addr type) ++
        hex2 (neg8 (sum8 (headerBytes 0 addr type))) ++ eol s.cfg.eol)
      rsps := s.rsps ++ [0x000] } := by
  obtain ⟨-, hopen⟩ | ⟨hne, -⟩ := s.openRecord_cases 0 addr type
  · rw [exec_fmtHdr_accepted hb hp ht, hopen, State.closeRecord_eq, hp, List.append_assoc _ (hex2 _),
      ← List.append_assoc s.out]
    rfl
  · exact absurd rfl hne

/-- A header with data to follow leaves its record open. -/
theorem exec_fmtHdr_open {count : Byte} {addr : BitVec 16} {type : Byte} (hb : s.seqBusy = false)
    (hp : s.phase = .idle) (ht : type ∈ recordTypes) (hc : count ≠ 0) :
    exec (.fmtHdr count addr type) s = .next { s with
      acc := sum8 (headerBytes count addr type)
      rem := count
      phase := .data
      out := s.out ++ colon :: hexPairs (headerBytes count addr type)
      rsps := s.rsps ++ [0x000] } := by
  obtain ⟨h0, -⟩ | ⟨-, hopen⟩ := s.openRecord_cases count addr type
  · exact absurd h0 hc
  · rw [exec_fmtHdr_accepted hb hp ht, hopen]
    rfl

/-- Settles O26: the header's bytes, sum and characters by the value of the address, and its three outcomes. -/
theorem fmtHdrOpensRecord : Obligations.FmtHdrOpensRecord := by
  refine ⟨fun count addr type => ⟨encode_fmtHdr count addr type, refusedOutside_of_ifAdmitted fun _ => rfl⟩,
    fun count addr type s hb hp => ?_⟩
  intro hi lo sum header
  have hsum : sum = sum8 (headerBytes count addr type) := by
    rw [headerBytes_eq]
    simp [sum, hi, lo, sum8, Nat.add_assoc]
  have hheader : header = colon :: hexPairs (headerBytes count addr type) := by
    rw [headerBytes_eq]
    simp [header, hi, lo, colon]
  rw [hsum, hheader]
  refine ⟨exec_fmtHdr_reserved hb hp, fun ht hc => ?_, exec_fmtHdr_open hb hp⟩
  subst hc
  exact exec_fmtHdr_empty hb hp ht

/-! ### `FMT.DAT` (R113) -/

/-- An accepted data byte. -/
theorem exec_fmtDat_accepted (b : Byte) (hb : s.seqBusy = false) (hp : s.phase = .data) :
    exec (.fmtDat b) s = .next ((s.takeDataByte b).respond .ok 0x00) :=
  State.ifAdmitted_accepted hb hp

/-- The byte that completes the count closes the record. -/
theorem exec_fmtDat_last (b : Byte) (hb : s.seqBusy = false) (hp : s.phase = .data) (hr : s.rem = 1) :
    exec (.fmtDat b) s = .next { s with
      acc := s.acc + b
      rem := 0
      phase := .idle
      out := s.out ++ (hex2 b ++ hex2 (neg8 (s.acc + b)) ++ eol s.cfg.eol)
      rsps := s.rsps ++ [0x000] } := by
  obtain ⟨-, htake⟩ | ⟨hne, -⟩ := s.takeDataByte_cases b
  · rw [exec_fmtDat_accepted b hb hp, htake, State.closeRecord_eq, List.append_assoc (hex2 b),
      ← List.append_assoc s.out]
    rfl
  · exact absurd hr hne

/-- Any other byte leaves the record open with one byte fewer owed. -/
theorem exec_fmtDat_open (b : Byte) (hb : s.seqBusy = false) (hp : s.phase = .data) (hr : s.rem ≠ 1) :
    exec (.fmtDat b) s = .next { s with
      acc := s.acc + b
      rem := s.rem - 1
      out := s.out ++ hex2 b
      rsps := s.rsps ++ [0x000] } := by
  obtain ⟨h1, -⟩ | ⟨-, htake⟩ := s.takeDataByte_cases b
  · exact absurd h1 hr
  · rw [exec_fmtDat_accepted b hb hp, htake]
    rfl

/-- Settles O27: the sum and the count as numbers, and the two outcomes of an accepted byte. -/
theorem fmtDatTakesByte : Obligations.FmtDatTakesByte := by
  refine ⟨fun b => ⟨encode_fmtDat b, refusedOutside_of_ifAdmitted fun _ => rfl⟩, fun arg harg => ?_,
    fun b s hb hp hr0 => ?_⟩
  · rw [decodeCommand_fmtDat, checkReserved_b, if_neg (not_lt_of_highBits_ne_zero harg)]
  · intro sum
    have hsum : sum = s.acc + b := BitVec.eq_of_toNat_eq (by simp [sum])
    rw [hsum]
    refine ⟨fun h1 => exec_fmtDat_last b hb hp (BitVec.eq_of_toNat_eq h1), fun h1 => ?_⟩
    have hrem : BitVec.ofNat 8 (s.rem.toNat - 1) = s.rem - 1 := by bv_omega
    rw [hrem]
    exact exec_fmtDat_open b hb hp (fun h => h1 (by rw [h]; rfl))

/-! ### `FMT.EOF` (R114) -/

/-- Settles O28: as `CSUM.CLR`, with the fixed text. -/
theorem fmtEofEmitsFixedRecord : Obligations.FmtEofEmitsFixedRecord := by
  refine ⟨rfl, fun arg harg => ?_, refusedOutside_of_ifAdmitted fun _ => rfl,
    fun s => State.ifAdmitted_accepted⟩
  rw [decodeCommand_fmtEof, checkReserved_n, if_neg harg]

/-! ### One record through the port (R115) -/

/-- The data bytes of an open record, as many as are owed and at least one, from any contents of `ACC`. -/
theorem execAll_fmtDat {data : List Byte} (hb : s.seqBusy = false) (hp : s.phase = .data) (hne : data ≠ [])
    (hr : s.rem.toNat = data.length) :
    execAll (data.map .fmtDat) s = .next { s with
      acc := s.acc + sum8 data
      rem := 0
      phase := .idle
      out := s.out ++ (hexPairs data ++ hex2 (neg8 (s.acc + sum8 data)) ++ eol s.cfg.eol)
      rsps := s.rsps ++ List.replicate data.length 0x000 } := by
  induction data generalizing s with
  | nil => exact absurd rfl hne
  | cons b data ih =>
    rw [List.length_cons] at hr
    rw [List.map_cons]
    by_cases hlast : data = []
    · subst hlast
      rw [execAll_cons (exec_fmtDat_last b hb hp (BitVec.eq_of_toNat_eq hr))]
      simp [sum8_cons]
    · have hlen : data.length ≠ 0 := mt List.length_eq_zero_iff.1 hlast
      have hr1 : s.rem ≠ 1 := by bv_omega
      have hrest : (s.rem - 1).toNat = data.length := by bv_omega
      have hdata := ih (s := { s with
        acc := s.acc + b, rem := s.rem - 1, out := s.out ++ hex2 b, rsps := s.rsps ++ [0x000] }) hb hp hlast hrest
      rw [execAll_cons (exec_fmtDat_open b hb hp hr1), hdata]
      simp [sum8_cons, BitVec.add_assoc, List.replicate_succ]

/-- Settles O30: a header alone when the count is 0, else a header and the data bytes it leaves owed. -/
theorem recordThroughThePort : Obligations.RecordThroughThePort := by
  intro s count addr type data hb hp ht hlen
  have hsum : sum8 (recordBytes count addr type data) = sum8 (headerBytes count addr type) + sum8 data :=
    sum8_append _ _
  rw [formatRecord, line_eq, checksum_eq_neg8_sum8, hsum, fmtRec]
  by_cases hc : count = 0
  · subst hc
    obtain rfl : data = [] := List.length_eq_zero_iff.1 hlen
    rw [execAll_cons (exec_fmtHdr_empty hb hp ht)]
    simp
  · have hne : data ≠ [] := by
      rintro rfl
      exact hc (BitVec.eq_of_toNat_eq hlen.symm)
    have hdata := execAll_fmtDat (s := { s with
      acc := sum8 (headerBytes count addr type), rem := count, phase := .data
      out := s.out ++ colon :: hexPairs (headerBytes count addr type), rsps := s.rsps ++ [0x000] })
      hb rfl hne hlen.symm
    rw [execAll_cons (exec_fmtHdr_open hb hp ht hc), hdata]
    simp [hlen, hp, List.replicate_succ, Nat.add_comm 1]

/-! ### What `ACC` held before (R184) -/

/-- A header sets `ACC` from its own bytes (R112). -/
theorem State.openRecord_setAcc (s : State) (v : BitVec 8) (count : Byte) (addr : BitVec 16) (type : Byte) :
    (s.setAcc v).openRecord count addr type = s.openRecord count addr type := rfl

/-- A computed record sets `ACC` from its own bytes (R118). -/
theorem State.emitRecord_setAcc (s : State) (v : BitVec 8) (count : Byte) (addr : BitVec 16) (type : Byte)
    (data : List Byte) : (s.setAcc v).emitRecord count addr type data = s.emitRecord count addr type data := rfl

theorem State.segmentStep_setAcc (s : State) (v : BitVec 8) (p : Params) :
    (s.setAcc v).segmentStep p = s.segmentStep p := rfl

/-- The start step, when it emits the Start-Address record (R137). -/
theorem State.startStep_of_startEn (h : s.cfg.startEn = 1) :
    s.startStep = (s.emitRecord 2 0x0000 0x04 [0x00, 0x00]).setSeqState .streaming :=
  congrArg (State.setSeqState · .streaming) (if_pos h)

theorem State.startStep_setAcc (v : BitVec 8) (h : s.cfg.startEn = 1) : (s.setAcc v).startStep = s.startStep := by
  rw [State.startStep_of_startEn h, State.startStep_of_startEn (s := s.setAcc v) h, State.emitRecord_setAcc]

/-- A read that fails delivers nothing (R43). -/
theorem streamRead_buf_of_fail {n : Nat} {i : Input} (h : (streamRead n i).status = .fail) :
    (streamRead n i).buf = [] := by
  revert h
  unfold streamRead
  dsimp only
  split
  · intro h; cases h
  · split
    · intro h; cases h
    · exact fun _ => rfl

/-- The streaming step, when it reads a byte (R138). -/
theorem State.streamingStep_of_buf_ne_nil {p : Params} (h : (streamRead p.chunk s.inp).buf ≠ []) :
    s.streamingStep p =
      let a := streamRead p.chunk s.inp
      let emitted := (s.setInp a.rest).emitData a.buf
      if a.status = .full then emitted.advance p.chunk else emitted.setSeqState .done := by
  obtain ⟨hfail, -⟩ | ⟨-, hnil, -⟩ | ⟨hshort, -, hstep⟩ | ⟨hfull, hstep⟩ := s.streamingStep_cases p
  · exact absurd (streamRead_buf_of_fail hfail) h
  · exact absurd hnil h
  · rw [hstep]
    exact (if_neg (by simp [hshort])).symm
  · rw [hstep]
    exact (if_pos hfull).symm

theorem State.streamingStep_setAcc (v : BitVec 8) {p : Params} (h : (streamRead p.chunk s.inp).buf ≠ []) :
    (s.setAcc v).streamingStep p = s.streamingStep p := by
  rw [State.streamingStep_of_buf_ne_nil h, State.streamingStep_of_buf_ne_nil (s := s.setAcc v) h]
  rfl

/-- The step `SEG_OVERFLOW` below the last count (R139). -/
theorem exec_extendedSegmentAddress_enabled (hq : s.seqState = .segOverflow) (hn : s.segCnt ≠ 0xFFFF) :
    exec .extendedSegmentAddress s = .next (s.segmentStep params) :=
  (State.ifEnabled_enabled hq).trans (if_neg hn)

theorem exec_startAddress_enabled (hq : s.seqState = .start) : exec .startAddress s = .next s.startStep :=
  State.ifEnabled_enabled hq

theorem exec_data_enabled (hq : s.seqState = .streaming) : exec .data s = .next (s.streamingStep params) :=
  State.ifEnabled_enabled hq

/-- Settles O31: each of the four leaves what it would leave without the earlier write to `ACC`. -/
theorem oldSumNeverLeaks : Obligations.OldSumNeverLeaks := by
  intro s v w
  refine ⟨fun count addr type ht hb hp => ?_, fun hn hq => ?_, fun hq he => ?_, fun hq hbuf => ?_⟩
  · have hexec (u : BitVec 8) : exec (.fmtHdr count addr type) (s.setAcc u) =
        .next ((s.openRecord count addr type).respond .ok 0x00) := by
      rw [exec_fmtHdr_accepted (s := s.setAcc u) hb hp ht, State.openRecord_setAcc]
    exact (hexec v).trans (hexec w).symm
  · have hexec (u : BitVec 8) : exec .extendedSegmentAddress (s.setAcc u) = .next (s.segmentStep params) := by
      rw [exec_extendedSegmentAddress_enabled (s := s.setAcc u) hq hn, State.segmentStep_setAcc]
    exact (hexec v).trans (hexec w).symm
  · have hexec (u : BitVec 8) : exec .startAddress (s.setAcc u) = .next s.startStep := by
      rw [exec_startAddress_enabled (s := s.setAcc u) hq, State.startStep_setAcc u he]
    exact (hexec v).trans (hexec w).symm
  · have hexec (u : BitVec 8) : exec .data (s.setAcc u) = .next (s.streamingStep params) := by
      rw [exec_data_enabled (s := s.setAcc u) hq, State.streamingStep_setAcc u hbuf]
    exact (hexec v).trans (hexec w).symm

end Sys2Proof.Machine
end

section
/-! The sequencer (42_sequencer): which action comes next (R136, R141, R195), the system commands (R131 to R135), the
four steps (R137 to R140), and where `STATE` can go (R136). -/

namespace Sys2Proof.Machine

variable {s t : State}

/-! ### Which action comes next (R136, R141, R195) -/

/-- With nothing presented and no run in progress the block waits. -/
theorem step_waits (hb : s.seqBusy = false) (hc : s.cmds = []) : step s = .next s := by
  obtain ⟨-, -, hf⟩ | ⟨cw, rest, hcons, -⟩ | ⟨i, hi, -⟩ := s.fetch_cases
  · rw [step, hf]
  · exact absurd (hc.symm.trans hcons) nofun
  · rw [State.seqBusy] at hb
    cases hq : s.seqState <;> simp [hq, SeqState.busy, SeqState.enabledStep] at hb hi

/-- An accepted word is executed when the host moves. -/
theorem step_command {cw : CommandWord} {rest : List CommandWord} {i : Instr} (hc : s.cmds = cw :: rest)
    (hw : s.seqBusy = false ∨ s.turn = .host) (hd : decodeCommand cw = .ok i) :
    step s = exec i s.dropCommand.nextTurn := by
  rw [step, State.fetch_command hc hw, commandAction, hd]

/-- The enabled step is executed when the sequencer moves. -/
theorem step_enabled {i : Instr} (hi : s.seqState.enabledStep = some i) (hw : s.cmds = [] ∨ s.turn = .sequencer) :
    step s = exec i s.nextTurn := by
  have hf : s.fetch = (.run i, s.nextTurn) := by
    unfold State.fetch
    rw [hi]
    cases hc : s.cmds <;> simp_all
  rw [step, hf]

/-- Settles O6: the accepted word is taken off the queue and executed. -/
theorem stepRunsDecodedCommand : Obligations.StepRunsDecodedCommand := by
  intro s cw rest i hc hw hd
  rw [step_command hc hw hd, State.nextTurn, State.dropCommand, hc]
  rfl

/-- Settles O7: in each state of a run, the row it enables. -/
theorem stepRunsEnabledStep : Obligations.StepRunsEnabledStep := by
  intro s hb hw
  refine step_enabled ?_ hw
  rw [State.seqBusy] at hb
  revert hb
  cases s.seqState <;> simp [SeqState.busy, SeqState.enabledStep]

/-- Settles O8. -/
theorem nothingHappensUntilCommand : Obligations.NothingHappensUntilCommand :=
  fun _ => step_waits

/-! ### The system commands (R131 to R135) -/

/-- Settles O11: the reset values are those of the table (R34). -/
theorem resetCommandResets : Obligations.ResetCommandResets := by
  refine ⟨rfl, fun arg harg => ?_, fun _ => rfl⟩
  rw [decodeCommand_reset, checkReserved_n, if_neg harg]

/-- The operands of format C as one number (R79). -/
theorem cfgArg_toNat (initAddr : BitVec 16) (startEn eol : BitVec 1) :
    ((0 : BitVec 14) ++ eol ++ startEn ++ initAddr).toNat =
      eol.toNat * 2 ^ 17 + startEn.toNat * 2 ^ 16 + initAddr.toNat := by
  rw [BitVec.toNat_append, ← Nat.shiftLeft_add_eq_or_of_lt initAddr.isLt, BitVec.toNat_append,
    ← Nat.shiftLeft_add_eq_or_of_lt startEn.isLt, BitVec.toNat_append, ← Nat.shiftLeft_add_eq_or_of_lt eol.isLt,
    Nat.shiftLeft_eq, Nat.shiftLeft_eq]
  simp
  omega

/-- The word of `SEQ.CFG` as a sum (R131). -/
theorem encode_seqCfg (initAddr : BitVec 16) (startEn eol : BitVec 1) :
    encode (.seqCfg initAddr startEn eol) =
      .command (BitVec.ofNat 36 (0x8 * 2 ^ 32 + eol.toNat * 2 ^ 17 + startEn.toNat * 2 ^ 16 + initAddr.toNat)) := by
  have hword := commandWord_toNat 0x8 ((0 : BitVec 14) ++ eol ++ startEn ++ initAddr)
  rw [cfgArg_toNat, ← Nat.add_assoc, ← Nat.add_assoc] at hword
  refine congrArg Encoding.command (BitVec.eq_of_toNat_eq ?_)
  rw [hword, BitVec.toNat_ofNat, Nat.mod_eq_of_lt (hword ▸ (commandWord 0x8 _).isLt)]
  rfl

/-- Settles O32: a bit above bit 17 is reserved, and an admitted command writes `CFG` only. -/
theorem seqCfgWritesConfiguration : Obligations.SeqCfgWritesConfiguration := by
  refine ⟨fun a st e => ⟨encode_seqCfg a st e, refusedOutside_of_ifAdmitted fun _ => rfl⟩, fun arg harg => ?_,
    fun a st e s => State.ifAdmitted_accepted⟩
  have hlarge : ¬ arg.toNat < 2 ^ 18 := fun hlt => harg <| by
    rw [extractLsb'_eq_ofNat_div, Nat.div_eq_of_lt hlt]
    rfl
  rw [decodeCommand_seqCfg, checkReserved_c, if_neg hlarge]

/-- The stream bound is the head of those offered, from its beginning (R42). -/
theorem State.nextInput_cons {i : Input} {rest : List Input} (h : s.streams = i :: rest) :
    s.nextInput = { i with pos := 0 } := by
  rw [State.nextInput, h]

/-- An accepted `SEQ.RUN` with a stream offered (R135). -/
theorem exec_seqRun_accepted {i : Input} {rest : List Input} (hb : s.seqBusy = false) (hp : s.phase = .idle)
    (hs : s.streams = i :: rest) :
    exec .seqRun s = .next { s with
      inp := { i with pos := 0 }, streams := rest
      curAddr := s.cfg.initAddr.setWidth 17, segCnt := 0
      err := if i.avail then .none else .inputUnavailable
      seqState := if i.avail then .start else .aborted
      rsps := s.rsps ++ [0x000] } := by
  refine (State.ifAdmitted_accepted hb hp).trans ?_
  rw [State.startRun_eq, State.nextInput_cons hs, hs]
  rfl

/-- Settles O33. -/
theorem seqRunStartsRun : Obligations.SeqRunStartsRun := by
  refine ⟨rfl, fun arg harg => ?_, refusedOutside_of_ifAdmitted fun _ => rfl, fun s i rest => exec_seqRun_accepted⟩
  rw [decodeCommand_seqRun, checkReserved_n, if_neg harg]

/-- `STATUS` as a sum (R31). -/
theorem State.status_toNat (s : State) :
    s.status.toNat = 16 * s.err.code.toNat + 8 * s.phase.code.toNat + s.seqState.code.toNat := by
  rw [State.status]
  cases s.err <;> cases s.phase <;> cases s.seqState <;> rfl

/-- `STAT.RD` answers the numbers of the three registers it sees (R31, R132). -/
theorem exec_statRd {e : ErrorKind} {p : Phase} {q : SeqState} (he : s.err = e) (hp : s.phase = p)
    (hq : s.seqState = q) :
    exec .statRd s =
      .next (s.answered (BitVec.ofNat 12 (16 * e.code.toNat + 8 * p.code.toNat + q.code.toNat))) := by
  subst he hp hq
  rw [← s.status_toNat, BitVec.ofNat_toNat, ← responseWord_ok]
  rfl

/-- Settles O35: the example answers are values of the one sum. -/
theorem statRdAnswersStatus : Obligations.StatRdAnswersStatus := by
  refine ⟨rfl, fun arg harg => ?_, fun s => ⟨exec_statRd rfl rfl rfl, exec_statRd, exec_statRd, exec_statRd,
    exec_statRd, exec_statRd, exec_statRd, exec_statRd, exec_statRd, exec_statRd⟩⟩
  rw [decodeCommand_statRd, checkReserved_n, if_neg harg]

/-- During a run every command passes the test for `BUSY` first, but for `STAT.RD` and `RESET` (R134, R168). -/
theorem exec_busy {i : Instr} (hi : isCommand i = true) (hb : s.seqBusy = true) (hstat : i ≠ .statRd)
    (hreset : i ≠ .reset) : exec i s = .next (s.answered 0x500) := by
  cases i with
  | csumClr | csumAdd | csumRd | fmtHdr | fmtDat | fmtEof | seqCfg | seqRun => exact State.ifAdmitted_busy hb
  | statRd => exact absurd rfl hstat
  | reset => exact absurd rfl hreset
  | data | endOfFile | extendedSegmentAddress | startAddress => cases hi

/-- Settles O36. -/
theorem onlyStatusAndResetDuringRun : Obligations.OnlyStatusAndResetDuringRun := by
  intro i s hi hb
  refine ⟨exec_busy hi hb, ?_, ?_⟩
  · rintro rfl
    rfl
  · rintro rfl
    exact ⟨s.resetRegisters.respond .ok 0x00, rfl, rfl, rfl⟩

/-! ### The steps of the sequencer (R137 to R140) -/

/-- The step `START` with `START_EN` set (R137). -/
theorem exec_startAddress_emits (hq : s.seqState = .start) (he : s.cfg.startEn = 1) :
    exec .startAddress s = .next { s with
      acc := 0x06, seqState := .streaming, out := s.out ++ recordText s.cfg.eol startRecord } := by
  rw [exec_startAddress_enabled hq, State.startStep_of_startEn he]
  rfl

/-- The step `START` with `START_EN` clear (R137). -/
theorem exec_startAddress_silent (hq : s.seqState = .start) (he : s.cfg.startEn = 0) :
    exec .startAddress s = .next { s with seqState := .streaming } := by
  have hne : ¬ s.cfg.startEn = 1 := by simp [he]
  rw [exec_startAddress_enabled hq, State.startStep, if_neg hne]
  rfl

/-- Settles O41. -/
theorem startStepEmitsStartRecord : Obligations.StartStepEmitsStartRecord := by
  intro s hq
  obtain ⟨-, htext, -⟩ := fixedRecordTexts
  refine ⟨fun he => ?_, exec_startAddress_silent hq⟩
  rw [← htext]
  exact exec_startAddress_emits hq he

/-- A Data record of the bytes read, by the running address as a number (R138). -/
theorem State.emitData_eq (s : State) (buf : List Byte) :
    s.emitData buf = { s with
      acc := sum8 (recordBytes (BitVec.ofNat 8 buf.length) (BitVec.ofNat 16 s.curAddr.toNat) 0x00 buf)
      out := s.out ++ recordText s.cfg.eol (dataRecord s.curAddr.toNat buf) } := by
  rw [State.emitData, State.emitRecord_eq, extractLsb'_zero_eq_ofNat]
  rfl

/-- The advance of a running address of 16 bits by one chunk, and its test, over numbers (R138). -/
theorem State.advance_chunk (h : s.curAddr.toNat ≤ 65535) :
    s.advance 32 = { s with
      curAddr := BitVec.ofNat 17 (s.curAddr.toNat + 32)
      seqState := if s.curAddr.toNat + 32 > 65535 then .segOverflow else .streaming } := by
  have hsum : s.curAddr + BitVec.ofNat 17 32 = BitVec.ofNat 17 (s.curAddr.toNat + 32) := by
    rw [BitVec.ofNat_add, BitVec.ofNat_toNat, BitVec.setWidth_eq]
  have htest : BitVec.ofNat 17 (s.curAddr.toNat + 32) > addrMax ↔ s.curAddr.toNat + 32 > 65535 := by
    rw [gt_iff_lt, BitVec.lt_def, BitVec.toNat_ofNat, Nat.mod_eq_of_lt (by omega)]
    rfl
  rw [State.advance_eq, hsum]
  simp only [htest]

/-- The step `STREAMING` whose read fails (R138, R170). -/
theorem exec_data_fail (hq : s.seqState = .streaming) (hstatus : (streamRead 32 s.inp).status = .fail) :
    exec .data s = .next { s with
      inp := (streamRead 32 s.inp).rest, err := .readFailure, seqState := .aborted } := by
  rw [exec_data_enabled hq]
  simp only [State.streamingStep, params, hstatus]
  rfl

/-- The step `STREAMING` at the end of the data (R138). -/
theorem exec_data_empty (hq : s.seqState = .streaming) (hstatus : (streamRead 32 s.inp).status = .short)
    (hbuf : (streamRead 32 s.inp).buf = []) :
    exec .data s = .next { s with inp := (streamRead 32 s.inp).rest, seqState := .done } := by
  rw [exec_data_enabled hq]
  simp only [State.streamingStep, params, hstatus]
  exact congrArg _ (if_pos hbuf)

/-- The step `STREAMING` on a partial chunk: no advance and no test (R138). -/
theorem exec_data_partial (hq : s.seqState = .streaming) (hstatus : (streamRead 32 s.inp).status = .short)
    (hbuf : (streamRead 32 s.inp).buf ≠ []) :
    exec .data s = .next { (s.emitData (streamRead 32 s.inp).buf) with
      inp := (streamRead 32 s.inp).rest, seqState := .done } := by
  rw [exec_data_enabled hq]
  simp only [State.streamingStep, params, hstatus]
  exact congrArg _ (if_neg hbuf)

/-- The step `STREAMING` on a full chunk (R138). -/
theorem exec_data_full (hq : s.seqState = .streaming) (haddr : s.curAddr.toNat ≤ 65535)
    (hstatus : (streamRead 32 s.inp).status = .full) :
    exec .data s = .next { (s.emitData (streamRead 32 s.inp).buf) with
      inp := (streamRead 32 s.inp).rest
      curAddr := BitVec.ofNat 17 (s.curAddr.toNat + 32)
      seqState := if s.curAddr.toNat + 32 > 65535 then .segOverflow else .streaming } := by
  rw [exec_data_enabled hq]
  simp only [State.streamingStep, params, hstatus]
  exact congrArg _ (State.advance_chunk haddr)

/-- Settles O42: the four outcomes of the read. -/
theorem streamingStepReadsChunk : Obligations.StreamingStepReadsChunk := by
  intro s hq haddr
  refine ⟨exec_data_fail hq, exec_data_empty hq, fun hstatus hbuf => ?_, fun hstatus => ?_⟩
  · rw [exec_data_partial hq hstatus hbuf, State.emitData_eq]
    rfl
  · rw [exec_data_full hq haddr hstatus, State.emitData_eq]
    rfl

/-- The big-endian bytes of a value as quotient and remainder (R47). -/
theorem bigEndian_eq (n : BitVec 16) :
    bigEndian n = [BitVec.ofNat 8 (n.toNat / 256), BitVec.ofNat 8 (n.toNat % 256)] := by
  rw [bigEndian, extractLsb'_eq_ofNat_div, extractLsb'_zero_eq_ofNat_mod]
  rfl

/-- The step `SEG_OVERFLOW` at the last count has no meaning (R139, U1). -/
theorem exec_extendedSegmentAddress_exhausted (hq : s.seqState = .segOverflow) (hn : s.segCnt = 0xFFFF) :
    exec .extendedSegmentAddress s = .refused .segmentCounterExhausted :=
  (State.ifEnabled_enabled hq).trans (if_pos hn)

/-- The step `SEG_OVERFLOW` with its record as data (R139). -/
theorem State.segmentStep_eq (s : State) :
    s.segmentStep params = { s with
      curAddr := s.curAddr - 65535
      segCnt := s.segCnt + 1
      acc := sum8 (headerBytes 2 0x0000 0x02 ++ bigEndian (s.segCnt + 1))
      out := s.out ++ formatRecord 2 0x0000 0x02 (bigEndian (s.segCnt + 1)) s.cfg.eol
      seqState := .streaming } := rfl

/-- Below the last count the segment counter does not wrap. -/
theorem segCnt_succ_toNat (hn : s.segCnt ≠ 0xFFFF) : (s.segCnt + 1).toNat = s.segCnt.toNat + 1 := by
  bv_omega

/-- Settles O43: past 65535 by 1 to 32, the running address keeps what is above 65535. -/
theorem segmentStepEmitsSegmentRecord : Obligations.SegmentStepEmitsSegmentRecord := by
  refine fun s hq => ⟨exec_extendedSegmentAddress_exhausted hq, fun hn hmin hmax => ?_⟩
  have hsub : (s.curAddr - 65535).toNat + 65535 = s.curAddr.toNat := by bv_omega
  refine ⟨hsub, by omega, by omega, segCnt_succ_toNat hn, ?_⟩
  rw [exec_extendedSegmentAddress_enabled hq hn, State.segmentStep_eq, bigEndian_eq]
  rfl

/-- Settles O44: either value of `SEG_SUB` is at most the address, and the first is only one less than the second. -/
theorem reducedAddressInRange : Obligations.ReducedAddressInRange := by
  intro s p hlegal hmin hmax
  have hsub : p.segSub.toNat = 65535 ∨ p.segSub.toNat = 65536 := by
    simp only [Params.legal, Bool.and_eq_true, Bool.or_eq_true, beq_iff_eq] at hlegal
    obtain ⟨-, h | h⟩ := hlegal <;> simp [h]
  have hle : p.segSub ≤ s.curAddr := by
    rw [BitVec.le_def]
    omega
  have hstep : (s.segmentStep p).curAddr.toNat = s.curAddr.toNat - p.segSub.toNat := BitVec.toNat_sub_of_le hle
  omega

/-- The step `DONE` (R140). -/
theorem exec_endOfFile_enabled (hq : s.seqState = .done) :
    exec .endOfFile s = .next { s with out := s.out ++ (eofText ++ eol s.cfg.eol), seqState := .halted } :=
  State.ifEnabled_enabled hq

/-- Settles O45. -/
theorem doneStepEmitsEndOfFile : Obligations.DoneStepEmitsEndOfFile :=
  fun _ => exec_endOfFile_enabled

/-- Settles O46. -/
theorem stepOutsideItsStateRefused : Obligations.StepOutsideItsStateRefused :=
  fun _ => ⟨State.ifEnabled_disabled, State.ifEnabled_disabled, State.ifEnabled_disabled, State.ifEnabled_disabled⟩

/-! ### Every action has a next state but the one the spec leaves open (R136 to R141, R165) -/

/-- An accepted command word is a command: the record rows are no words of the port (R18, R83). -/
theorem isCommand_of_decodeCommand {cw : CommandWord} {i : Instr} (hd : decodeCommand cw = .ok i) :
    isCommand i = true := by
  have henc : encode i = .command cw := encodeInvertsDecode (.command cw) i hd
  cases i with
  | csumClr | csumAdd | csumRd | fmtHdr | fmtDat | fmtEof | seqCfg | seqRun | statRd | reset => rfl
  | data | endOfFile | extendedSegmentAddress | startAddress => cases henc

/-- Admitted or refused, a command leaves a next state (R165). -/
theorem State.ifAdmitted_completes (s : State) (need : Phase) (accepted : State) :
    ∃ t, s.ifAdmitted need accepted = .next t := by
  unfold State.ifAdmitted
  split
  · exact ⟨_, rfl⟩
  · exact ⟨_, rfl⟩

theorem exec_command_completes {i : Instr} (hi : isCommand i = true) (s : State) : ∃ t, exec i s = .next t := by
  cases i with
  | csumClr | csumAdd | csumRd | fmtHdr | fmtDat | fmtEof | seqCfg | seqRun => exact s.ifAdmitted_completes _ _
  | statRd | reset => exact ⟨_, rfl⟩
  | data | endOfFile | extendedSegmentAddress | startAddress => cases hi

/-- The enabled step completes, but for `SEG_OVERFLOW` at the last count (R137 to R140, U1). -/
theorem exec_enabledStep_completes {i : Instr} (hi : s.seqState.enabledStep = some i) :
    (∃ t, exec i s = .next t) ∨
      (s.seqState = .segOverflow ∧ s.segCnt = 0xFFFF ∧ exec i s = .refused .segmentCounterExhausted) := by
  cases hq : s.seqState <;> rw [hq] at hi <;> cases hi
  case start => exact .inl ⟨_, exec_startAddress_enabled hq⟩
  case streaming => exact .inl ⟨_, exec_data_enabled hq⟩
  case segOverflow =>
    by_cases hn : s.segCnt = 0xFFFF
    · exact .inr ⟨rfl, hn, exec_extendedSegmentAddress_exhausted hq hn⟩
    · exact .inl ⟨_, exec_extendedSegmentAddress_enabled hq hn⟩
  case done => exact .inl ⟨_, exec_endOfFile_enabled hq⟩

/-- Settles O53: the block waits, or the host's word is executed or refused, or the enabled step is taken. -/
theorem everyActionCompletes : Obligations.EveryActionCompletes := by
  intro s
  obtain ⟨hb, hc, -⟩ | ⟨cw, rest, hc, hw, hf⟩ | ⟨i, hi, hw, -⟩ := s.fetch_cases
  · exact .inl ⟨s, step_waits hb hc⟩
  · left
    cases hd : decodeCommand cw with
    | ok i =>
      rw [step_command hc hw hd]
      exact exec_command_completes (isCommand_of_decodeCommand hd) _
    | error code => exact ⟨s.dropCommand.nextTurn.refuse code, by rw [step, hf, commandAction, hd]⟩
  · rw [step_enabled hi hw]
    exact exec_enabledStep_completes (s := s.nextTurn) hi

/-! ### Where `STATE` can go (R136) -/

theorem SeqState.code_injective {p q : SeqState} (h : p.code.toNat = q.code.toNat) : p = q := by
  revert h
  cases p <;> cases q <;> decide

/-- An instruction whose row of the access table does not list `STATE` leaves it alone (R35). -/
theorem exec_seqState_held {i : Instr} (hx : exec i s = .next t) (hi : Register.state ∉ writtenRegisters i) :
    t.seqState = s.seqState :=
  SeqState.code_injective (accessTableFrame i s t hx .state hi)

/-- The step `STREAMING` goes on, overflows, ends or aborts (R138). -/
theorem State.streamingStep_seqState (s : State) (p : Params) :
    (s.streamingStep p).seqState ∈ [SeqState.streaming, .segOverflow, .done, .aborted] := by
  obtain ⟨-, h⟩ | ⟨-, -, h⟩ | ⟨-, -, h⟩ | ⟨-, h⟩ := s.streamingStep_cases p <;> rw [h]
  · simp [State.raiseError]
  · simp
  · simp
  · rw [State.advance_eq]
    dsimp only
    split <;> simp

/-- What an instruction does to `STATE`. -/
theorem exec_transition {i : Instr} (hx : exec i s = .next t) :
    t.seqState = s.seqState ∨ (s.seqState, t.seqState) ∈ transitions ∨ t.seqState = .idle := by
  cases i with
  | csumClr | csumAdd | csumRd | fmtHdr | fmtDat | fmtEof | seqCfg | statRd =>
    exact .inl (exec_seqState_held hx (by simp [writtenRegisters]))
  | reset =>
    cases hx
    exact .inr (.inr rfl)
  | seqRun =>
    obtain ⟨code, rfl⟩ | ⟨hb, -, rfl⟩ := State.ifAdmitted_cases hx
    · exact .inl (s.refuse_seqState code)
    · rw [State.startRun_eq]
      rw [State.seqBusy] at hb
      cases hq : s.seqState <;> cases s.nextInput.avail <;> simp [hq, SeqState.busy, transitions] at hb ⊢
  | data =>
    obtain ⟨hq, heq⟩ := State.ifEnabled_cases hx
    cases heq
    have hmem := s.streamingStep_seqState params
    rw [hq]
    revert hmem
    cases (s.streamingStep params).seqState <;> decide
  | endOfFile =>
    obtain ⟨hq, heq⟩ := State.ifEnabled_cases hx
    cases heq
    exact .inr (.inl (by simp [hq, State.doneStep, transitions]))
  | extendedSegmentAddress =>
    obtain ⟨hq, -, rfl⟩ := execExtendedSegmentAddress_cases hx
    exact .inr (.inl (by simp [hq, State.segmentStep, transitions]))
  | startAddress =>
    obtain ⟨hq, heq⟩ := State.ifEnabled_cases hx
    cases heq
    exact .inr (.inl (by simp [hq, State.startStep, transitions]))

/-- Settles O50: fetching and refusing leave `STATE` alone. -/
theorem onlyTableTransitions : Obligations.OnlyTableTransitions := by
  intro s t hx
  obtain ⟨-, -, rfl⟩ | ⟨cw, rest, -, -, ⟨i, -, hexec⟩ | ⟨code, -, rfl⟩⟩ | ⟨i, -, -, hexec⟩ := step_cases hx
  · exact .inl rfl
  · exact exec_transition (s := s.dropCommand.nextTurn) hexec
  · exact .inl rfl
  · exact exec_transition (s := s.nextTurn) hexec

end Sys2Proof.Machine
end

section
/-! The records of a run (R142 to R145, R148): the loop of `Encode` (R150) as a relation, one rule per way it goes on
or ends, and what each record sequence it allows has in common. -/

namespace Sys2Proof.Machine

/-! ### Records by their type (R70) -/

@[simp] theorem startRecord_type : startRecord.type = 0x04 := rfl
@[simp] theorem segmentRecord_type (n : Nat) : (segmentRecord n).type = 0x02 := rfl
@[simp] theorem dataRecord_type (addr : Nat) (buf : List Byte) : (dataRecord addr buf).type = 0x00 := rfl
@[simp] theorem dataRecord_data (addr : Nat) (buf : List Byte) : (dataRecord addr buf).data = buf := rfl

/-! ### The loop of R150 as a relation -/

/-- The records of the loop on the bytes not yet read and how it ends, from a running address and a segment
count. -/
inductive LoopRecords (ending : StreamEnd) : List Byte → Nat → Nat → List Record → RunEnd → Prop
  /-- The read fails. -/
  | failed {rest : List Byte} {cur seg : Nat} (hlen : rest.length < 32) (hend : ending = .fail) :
    LoopRecords ending rest cur seg [] .readFailure
  /-- The data ends at a chunk's end. -/
  | ended {cur seg : Nat} (hend : ending = .eos) : LoopRecords ending [] cur seg [eofRecord] .halted
  /-- The data ends within a chunk. -/
  | endedPartial {rest : List Byte} {cur seg : Nat} (hlen : rest.length < 32) (hne : rest ≠ [])
    (hend : ending = .eos) : LoopRecords ending rest cur seg [dataRecord cur rest, eofRecord] .halted
  /-- A full chunk that leaves the address in range. -/
  | advanced {chunk rest : List Byte} {cur seg : Nat} {records : List Record} {e : RunEnd}
    (hlen : chunk.length = 32) (haddr : cur + 32 ≤ 65535) (next : LoopRecords ending rest (cur + 32) seg records e) :
    LoopRecords ending (chunk ++ rest) cur seg (dataRecord cur chunk :: records) e
  /-- A full chunk that overflows. -/
  | overflowed {chunk rest : List Byte} {cur seg : Nat} {records : List Record} {e : RunEnd}
    (hlen : chunk.length = 32) (haddr : 65535 < cur + 32) (hseg : seg ≠ 0xFFFF)
    (next : LoopRecords ending rest (cur + 32 - 65535) (seg + 1) records e) :
    LoopRecords ending (chunk ++ rest) cur seg (dataRecord cur chunk :: segmentRecord (seg + 1) :: records) e
  /-- A full chunk that overflows at the last segment count (U1). -/
  | exhausted {chunk rest : List Byte} {cur seg : Nat} (hlen : chunk.length = 32) (haddr : 65535 < cur + 32)
    (hseg : seg = 0xFFFF) : LoopRecords ending (chunk ++ rest) cur seg [dataRecord cur chunk] .unspecified

/-- With one unit of fuel for each read, the loop is what the relation says. -/
theorem loopRecords_recordLoop (ending : StreamEnd) (fuel : Nat) (rest : List Byte) (cur seg : Nat)
    (hfuel : rest.length / 32 < fuel) :
    LoopRecords ending rest cur seg (recordLoop params ending fuel rest cur seg).1
      (recordLoop params ending fuel rest cur seg).2 := by
  induction fuel generalizing rest cur seg with
  | zero => omega
  | succ fuel ih =>
    unfold recordLoop
    split
    case isTrue hfull =>
      have hchunk : (rest.take 32).length = 32 := List.length_take_of_le hfull
      have hnext (cur seg : Nat) := ih (rest.drop 32) cur seg (by
        rw [List.length_drop]
        exact Nat.lt_of_succ_lt_succ ((Nat.div_eq_sub_div (by decide) hfull).symm.trans_lt hfuel))
      rw [show LoopRecords ending rest = LoopRecords ending (rest.take 32 ++ rest.drop 32) by
        rw [List.take_append_drop]]
      dsimp only
      split
      case isTrue haddr =>
        split
        case isTrue hseg => exact .exhausted hchunk haddr hseg
        case isFalse hseg => exact .overflowed hchunk haddr hseg (hnext _ _)
      case isFalse haddr => exact .advanced hchunk (not_lt.1 haddr) (hnext _ _)
    case isFalse hpartial =>
      have hlen : rest.length < 32 := not_le.1 hpartial
      cases ending with
      | fail => exact .failed hlen rfl
      | eos =>
        dsimp only
        split
        case isTrue hnil =>
          subst hnil
          exact .ended rfl
        case isFalse hne => exact .endedPartial hlen hne rfl

/-- The records of a run: none without an input, else the Start-Address record if enabled and those of the loop. -/
theorem runRecords_cases (cfg : Cfg) (i : Input) :
    (i.avail = false ∧ runRecords params cfg i = ([], .inputUnavailable)) ∨
    ∃ (records : List Record) (e : RunEnd), i.avail = true ∧
      LoopRecords i.ending i.data cfg.initAddr.toNat 0 records e ∧
      runRecords params cfg i = ((if cfg.startEn = 1 then [startRecord] else []) ++ records, e) := by
  cases havail : i.avail
  · exact .inl ⟨rfl, by simp [runRecords, havail]⟩
  · exact .inr ⟨_, _, rfl, loopRecords_recordLoop i.ending (i.data.length / 32 + 1) _ _ _ (Nat.lt_succ_self _),
      by simp [runRecords, havail, prepend, params]⟩

/-- The records of a run that ends well. -/
theorem runRecords_halted {cfg : Cfg} {i : Input} (h : (runRecords params cfg i).2 = .halted) :
    ∃ records : List Record, LoopRecords i.ending i.data cfg.initAddr.toNat 0 records .halted ∧
      (runRecords params cfg i).1 = (if cfg.startEn = 1 then [startRecord] else []) ++ records := by
  obtain ⟨-, heq⟩ | ⟨records, e, -, hloop, heq⟩ := runRecords_cases cfg i
  · rw [heq] at h
    cases h
  · rw [heq] at h ⊢
    cases h
    exact ⟨records, hloop, rfl⟩

/-- The Start-Address record is no record of another type. -/
theorem filter_startRecord {cfg : Cfg} {type : Byte} (htype : type ≠ 0x04) (records : List Record) :
    ((if cfg.startEn = 1 then [startRecord] else []) ++ records).filter (fun r => r.type == type) =
      records.filter fun r => r.type == type := by
  split
  · exact List.filter_cons_of_neg (by simpa using Ne.symm htype)
  · rfl

/-! ### The order of the records (R142) -/

/-- Every segment record stands directly after a Data record of 32 bytes. -/
def SegmentsFollowFullChunks (records : List Record) : Prop :=
  ∀ (before after : List Record) (r : Record), records = before ++ r :: after → r.type = 0x02 →
    ∃ (earlier : List Record) (d : Record), before = earlier ++ [d] ∧ d.type = 0x00 ∧ d.count = 32

namespace SegmentsFollowFullChunks

theorem nil : SegmentsFollowFullChunks [] := fun before after r h => by simp at h

/-- A record that is no segment record can stand in front. -/
theorem cons {d : Record} {records : List Record} (h : SegmentsFollowFullChunks records) (hd : d.type ≠ 0x02) :
    SegmentsFollowFullChunks (d :: records) := by
  intro before after r heq hr
  obtain ⟨-, hhead⟩ | ⟨before, rfl, htail⟩ := List.cons_eq_append_iff.1 heq
  · obtain ⟨rfl, -⟩ := List.cons.inj hhead
    exact absurd hr hd
  · obtain ⟨earlier, f, rfl, hf⟩ := h before after r htail hr
    exact ⟨d :: earlier, f, rfl, hf⟩

/-- A full chunk can stand in front with the record after it. -/
theorem cons_cons {d q : Record} {records : List Record} (h : SegmentsFollowFullChunks records)
    (hd : d.type = 0x00) (hcount : d.count = 32) : SegmentsFollowFullChunks (d :: q :: records) := by
  intro before after r heq hr
  obtain ⟨-, hhead⟩ | ⟨before, rfl, htail⟩ := List.cons_eq_append_iff.1 heq
  · obtain ⟨rfl, -⟩ := List.cons.inj hhead
    exact absurd (hd.symm.trans hr) (by decide)
  obtain ⟨rfl, -⟩ | ⟨before, rfl, hrest⟩ := List.cons_eq_append_iff.1 htail
  · exact ⟨[], d, rfl, hd, hcount⟩
  · obtain ⟨earlier, f, rfl, hf⟩ := h before after r hrest hr
    exact ⟨d :: q :: earlier, f, rfl, hf⟩

end SegmentsFollowFullChunks

/-- The loop that ends well: Data and segment records in order, then the End-Of-File record. -/
theorem LoopRecords.order {ending : StreamEnd} {rest : List Byte} {cur seg : Nat} {records : List Record}
    (h : LoopRecords ending rest cur seg records .halted) :
    ∃ middle : List Record, records = middle ++ [eofRecord] ∧ (∀ r ∈ middle, r.type = 0x00 ∨ r.type = 0x02) ∧
      SegmentsFollowFullChunks middle := by
  generalize he : RunEnd.halted = e at h
  induction h with
  | failed | exhausted => cases he
  | ended => exact ⟨[], rfl, by simp, .nil⟩
  | @endedPartial rest cur =>
    exact ⟨[dataRecord cur rest], rfl, by simp, .cons .nil (by simp)⟩
  | @advanced chunk _ cur _ _ _ _ _ _ ih =>
    obtain ⟨middle, rfl, htypes, horder⟩ := ih he
    exact ⟨dataRecord cur chunk :: middle, rfl, by simpa using htypes, horder.cons (by simp)⟩
  | @overflowed chunk _ cur seg _ _ hlen _ _ _ ih =>
    obtain ⟨middle, rfl, htypes, horder⟩ := ih he
    exact ⟨dataRecord cur chunk :: segmentRecord (seg + 1) :: middle, rfl, by simpa using htypes,
      horder.cons_cons rfl (by simp [dataRecord, hlen])⟩

/-- Settles O55. -/
theorem goodRunRecordOrder : Obligations.GoodRunRecordOrder := by
  intro cfg i hgood
  obtain ⟨records, hloop, heq⟩ := runRecords_halted hgood
  obtain ⟨middle, rfl, htypes, horder⟩ := hloop.order
  exact ⟨middle, by rw [heq, List.append_assoc], htypes, horder⟩

/-! ### The data of the Data records (R143) -/

/-- The Data records among some records. -/
def dataRecords (records : List Record) : List Record := records.filter fun r => r.type == 0x00

/-- The records carry these bytes in chunks of 32, the last of what is left. -/
def CarryChunks (records : List Record) (bytes : List Byte) : Prop :=
  records.length = (bytes.length + 31) / 32 ∧ records.flatMap Record.data = bytes ∧
  ∀ (n : Nat) (h : n < records.length),
    records[n].data = (bytes.drop (32 * n)).take 32 ∧ records[n].count.toNat = records[n].data.length

theorem CarryChunks.nil : CarryChunks [] [] := ⟨rfl, rfl, fun n h => absurd h (Nat.not_lt_zero n)⟩

/-- The count of a record of one chunk does not wrap. -/
theorem dataRecord_count_toNat (addr : Nat) {buf : List Byte} (h : buf.length ≤ 32) :
    (dataRecord addr buf).count.toNat = buf.length := by
  rw [dataRecord, BitVec.toNat_ofNat, Nat.mod_eq_of_lt (by omega)]

/-- A last chunk that is not full. -/
theorem CarryChunks.singleton (addr : Nat) {buf : List Byte} (hne : buf ≠ []) (hlen : buf.length < 32) :
    CarryChunks [dataRecord addr buf] buf := by
  have hpos : 0 < buf.length := List.length_pos_iff.2 hne
  refine ⟨by rw [List.length_singleton]; omega, by simp, fun n h => ?_⟩
  obtain rfl : n = 0 := Nat.lt_one_iff.1 h
  exact ⟨(List.take_of_length_le hlen.le).symm, dataRecord_count_toNat addr hlen.le⟩

/-- A full chunk before those of the rest. -/
theorem CarryChunks.cons {chunk rest : List Byte} {records : List Record} (h : CarryChunks records rest)
    (addr : Nat) (hlen : chunk.length = 32) :
    CarryChunks (dataRecord addr chunk :: records) (chunk ++ rest) := by
  obtain ⟨hcount, hjoin, hchunks⟩ := h
  refine ⟨by rw [List.length_cons, List.length_append]; omega, by simp [hjoin], fun n hn => ?_⟩
  cases n with
  | zero => exact ⟨(List.take_left' hlen).symm, dataRecord_count_toNat addr hlen.le⟩
  | succ n =>
    have hdrop : (chunk ++ rest).drop (32 * (n + 1)) = rest.drop (32 * n) := by
      rw [Nat.mul_succ, Nat.add_comm, ← List.drop_drop, List.drop_left' hlen]
    rw [hdrop]
    exact hchunks n (Nat.lt_of_succ_lt_succ hn)

/-- The loop that ends well reads all its bytes (R143). -/
theorem LoopRecords.carryChunks {ending : StreamEnd} {rest : List Byte} {cur seg : Nat} {records : List Record}
    (h : LoopRecords ending rest cur seg records .halted) : CarryChunks (dataRecords records) rest := by
  generalize he : RunEnd.halted = e at h
  induction h with
  | failed | exhausted => cases he
  | ended => exact .nil
  | endedPartial hlen hne => exact .singleton _ hne hlen
  | advanced hlen _ _ ih => exact (ih he).cons _ hlen
  | overflowed hlen _ _ _ ih => exact (ih he).cons _ hlen

/-- Settles O56: the Start-Address record is no Data record, and the loop reads all of the input. -/
theorem dataRecordsCarryChunks : Obligations.DataRecordsCarryChunks := by
  intro cfg i hgood
  obtain ⟨records, hloop, heq⟩ := runRecords_halted hgood
  have hfilter := filter_startRecord (cfg := cfg) (type := 0x00) (by decide) records
  rw [heq, hfilter]
  exact hloop.carryChunks

/-! ### The addresses of the Data records (R144, R148) -/

/-- `q` is the first Data record of these records, and those before it are `between`. -/
def FirstData (records between : List Record) (q : Record) : Prop :=
  q.type = 0x00 ∧ (∀ d ∈ between, d.type ≠ 0x00) ∧ ∃ after, records = between ++ q :: after

theorem not_firstData_nil {between : List Record} {q : Record} : ¬ FirstData [] between q := by
  rintro ⟨-, -, after, h⟩
  simp at h

/-- A Data record in front is the first. -/
theorem FirstData.eq_of_data {d q : Record} {records between : List Record} (h : FirstData (d :: records) between q)
    (hd : d.type = 0x00) : between = [] ∧ q = d := by
  obtain ⟨-, hbetween, after, heq⟩ := h
  obtain ⟨rfl, hhead⟩ | ⟨between, rfl, -⟩ := List.cons_eq_append_iff.1 heq
  · exact ⟨rfl, (List.cons.inj hhead).1⟩
  · exact absurd hd (hbetween d List.mem_cons_self)

/-- Any other record in front is one of those before it. -/
theorem FirstData.tail_of_not_data {d q : Record} {records between : List Record}
    (h : FirstData (d :: records) between q) (hd : d.type ≠ 0x00) :
    ∃ between', between = d :: between' ∧ FirstData records between' q := by
  obtain ⟨hq, hbetween, after, heq⟩ := h
  obtain ⟨rfl, hhead⟩ | ⟨between, rfl, htail⟩ := List.cons_eq_append_iff.1 heq
  · obtain ⟨rfl, -⟩ := List.cons.inj hhead
    exact absurd hq hd
  · exact ⟨between, rfl, hq, fun x hx => hbetween x (List.mem_cons_of_mem d hx), after, htail⟩

/-- The loop's first Data record comes first and has the running address. -/
theorem LoopRecords.firstData {ending : StreamEnd} {rest : List Byte} {cur seg : Nat} {records between : List Record}
    {e : RunEnd} {q : Record} (h : LoopRecords ending rest cur seg records e) (hq : FirstData records between q) :
    between = [] ∧ q.addr = BitVec.ofNat 16 cur := by
  cases h with
  | failed => exact absurd hq not_firstData_nil
  | ended =>
    obtain ⟨_, -, hnil⟩ := hq.tail_of_not_data (by decide)
    exact absurd hnil not_firstData_nil
  | endedPartial | advanced | overflowed | exhausted =>
    obtain ⟨hbetween, rfl⟩ := hq.eq_of_data rfl
    exact ⟨hbetween, rfl⟩

/-- `r` and `q` are consecutive Data records of these records, and those between them are `between`. -/
def ConsecutiveData (records : List Record) (r : Record) (between : List Record) (q : Record) : Prop :=
  ∃ before tail, records = before ++ r :: tail ∧ r.type = 0x00 ∧ FirstData tail between q

theorem not_consecutiveData_nil {r q : Record} {between : List Record} : ¬ ConsecutiveData [] r between q := by
  rintro ⟨before, tail, h, -⟩
  simp at h

theorem ConsecutiveData.cases_cons {d r q : Record} {records between : List Record}
    (h : ConsecutiveData (d :: records) r between q) :
    (r = d ∧ d.type = 0x00 ∧ FirstData records between q) ∨ ConsecutiveData records r between q := by
  obtain ⟨before, tail, heq, hr, hfirst⟩ := h
  obtain ⟨-, hhead⟩ | ⟨before, -, htail⟩ := List.cons_eq_append_iff.1 heq
  · obtain ⟨rfl, rfl⟩ := List.cons.inj hhead
    exact .inl ⟨rfl, hr, hfirst⟩
  · exact .inr ⟨before, tail, htail, hr, hfirst⟩

theorem ConsecutiveData.tail_of_not_data {d r q : Record} {records between : List Record}
    (h : ConsecutiveData (d :: records) r between q) (hd : d.type ≠ 0x00) : ConsecutiveData records r between q := by
  obtain ⟨-, hdata, -⟩ | h := h.cases_cons
  · exact absurd hdata hd
  · exact h

/-- The second of two consecutive Data records is where R144 puts it. -/
def AddressFollows (r : Record) (between : List Record) (q : Record) : Prop :=
  (r.addr.toNat + 32 ≤ 65535 → between = [] ∧ q.addr.toNat = r.addr.toNat + 32) ∧
  (65535 < r.addr.toNat + 32 →
    (∃ n, between = [segmentRecord n]) ∧ q.addr.toNat + 65535 = r.addr.toNat + 32)

/-- The address of a Data record at a running address of 16 bits. -/
theorem dataRecord_addr_toNat {addr : Nat} (h : addr ≤ 65535) (buf : List Byte) :
    (dataRecord addr buf).addr.toNat = addr := by
  rw [dataRecord, BitVec.toNat_ofNat, Nat.mod_eq_of_lt (by omega)]

/-- The loop's Data records from a running address of 16 bits (R144). -/
theorem LoopRecords.addressFollows {ending : StreamEnd} {rest : List Byte} {cur seg : Nat} {records : List Record}
    {e : RunEnd} (h : LoopRecords ending rest cur seg records e) (hcur : cur ≤ 65535) {r q : Record}
    {between : List Record} (hrq : ConsecutiveData records r between q) : AddressFollows r between q := by
  induction h with
  | failed => exact absurd hrq not_consecutiveData_nil
  | ended => exact absurd (hrq.tail_of_not_data (by decide)) not_consecutiveData_nil
  | endedPartial =>
    obtain ⟨-, -, hfirst⟩ | hlater := hrq.cases_cons
    · obtain ⟨_, -, hnil⟩ := hfirst.tail_of_not_data (by decide)
      exact absurd hnil not_firstData_nil
    · exact absurd (hlater.tail_of_not_data (by decide)) not_consecutiveData_nil
  | exhausted =>
    obtain ⟨-, -, hnil⟩ | hnil := hrq.cases_cons
    · exact absurd hnil not_firstData_nil
    · exact absurd hnil not_consecutiveData_nil
  | @advanced chunk _ cur _ _ _ _ haddr next ih =>
    obtain ⟨rfl, -, hfirst⟩ | hlater := hrq.cases_cons
    · obtain ⟨rfl, hq⟩ := next.firstData hfirst
      have hr := dataRecord_addr_toNat hcur chunk
      have hqaddr : q.addr.toNat = cur + 32 := by
        rw [hq, BitVec.toNat_ofNat, Nat.mod_eq_of_lt (by omega)]
      exact ⟨fun _ => ⟨rfl, by omega⟩, fun hover => by omega⟩
    · exact ih haddr hlater
  | @overflowed chunk _ cur seg _ _ _ haddr _ next ih =>
    obtain ⟨rfl, -, hfirst⟩ | hlater := hrq.cases_cons
    · obtain ⟨between, rfl, hrest⟩ := hfirst.tail_of_not_data (by simp)
      obtain ⟨rfl, hq⟩ := next.firstData hrest
      have hr := dataRecord_addr_toNat hcur chunk
      have hqaddr : q.addr.toNat = cur + 32 - 65535 := by
        rw [hq, BitVec.toNat_ofNat, Nat.mod_eq_of_lt (by omega)]
      exact ⟨fun hin => by omega, fun _ => ⟨⟨seg + 1, rfl⟩, by omega⟩⟩
    · exact ih (by omega) (hlater.tail_of_not_data (by simp))

/-- Settles O57: the Start-Address record is no Data record, and the loop's are where R144 puts them. -/
theorem addressSequenceOfRun : Obligations.AddressSequenceOfRun := by
  intro cfg i records
  obtain ⟨-, hrun⟩ | ⟨loop, e, -, hloop, hrun⟩ := runRecords_cases cfg i
  · have hnil : records = [] := congrArg Prod.fst hrun
    rw [hnil]
    exact ⟨fun _ _ _ h => by simp at h, fun _ _ _ _ _ h => by simp at h⟩
  · have heq : records = (if cfg.startEn = 1 then [startRecord] else []) ++ loop := congrArg Prod.fst hrun
    have hcur : cfg.initAddr.toNat ≤ 65535 := Nat.le_of_lt_succ cfg.initAddr.isLt
    refine ⟨fun before after r h hr hbefore => ?_, fun before between after r q h hr hq hbetween => ?_⟩
    · have hfirst : FirstData records before r := ⟨hr, hbefore, after, h⟩
      obtain ⟨before', hfirst⟩ : ∃ before', FirstData loop before' r := by
        rw [heq] at hfirst
        split at hfirst
        · obtain ⟨before', -, hloopFirst⟩ := hfirst.tail_of_not_data (by decide)
          exact ⟨before', hloopFirst⟩
        · exact ⟨before, hfirst⟩
      rw [(hloop.firstData hfirst).2, BitVec.ofNat_toNat, BitVec.setWidth_eq]
    · have hconsecutive : ConsecutiveData records r between q := ⟨before, _, h, hr, hq, hbetween, after, rfl⟩
      rw [heq] at hconsecutive
      split at hconsecutive
      · exact hloop.addressFollows hcur (hconsecutive.tail_of_not_data (by decide))
      · exact hloop.addressFollows hcur hconsecutive

/-! ### The segment records (R145) -/

/-- The segment records among some records. -/
def segmentRecords (records : List Record) : List Record := records.filter fun r => r.type == 0x02

@[simp] theorem segmentRecords_nil : segmentRecords [] = [] := rfl

@[simp] theorem segmentRecords_cons_data (addr : Nat) (buf : List Byte) (records : List Record) :
    segmentRecords (dataRecord addr buf :: records) = segmentRecords records := rfl

@[simp] theorem segmentRecords_cons_segment (n : Nat) (records : List Record) :
    segmentRecords (segmentRecord n :: records) = segmentRecord n :: segmentRecords records := rfl

@[simp] theorem segmentRecords_cons_eof (records : List Record) :
    segmentRecords (eofRecord :: records) = segmentRecords records := rfl

/-- The segment records of a run are those of its loop. -/
theorem segmentRecords_start_append (cfg : Cfg) (records : List Record) :
    segmentRecords ((if cfg.startEn = 1 then [startRecord] else []) ++ records) = segmentRecords records :=
  filter_startRecord (by decide) records

/-- The loop's segment records count on from the segment count, up to 65535 (R139, R145). -/
theorem LoopRecords.segmentRecords_eq {ending : StreamEnd} {rest : List Byte} {cur seg : Nat} {records : List Record}
    {e : RunEnd} (h : LoopRecords ending rest cur seg records e) (hseg : seg ≤ 65535) :
    ∃ n, segmentRecords records = (List.range' (seg + 1) n).map segmentRecord ∧ seg + n ≤ 65535 := by
  induction h with
  | failed | ended | endedPartial | exhausted => exact ⟨0, rfl, hseg⟩
  | advanced _ _ _ ih => exact ih hseg
  | overflowed _ _ hne _ ih =>
    obtain ⟨n, heq, hn⟩ := ih (by omega)
    exact ⟨n + 1, by simp [heq, List.range'_succ], by omega⟩

/-- Settles O58. -/
theorem segmentRecordsCountUp : Obligations.SegmentRecordsCountUp := by
  intro cfg i
  obtain ⟨-, hrun⟩ | ⟨loop, e, -, hloop, hrun⟩ := runRecords_cases cfg i
  · rw [hrun]
    exact ⟨rfl, Nat.zero_le _⟩
  · obtain ⟨n, heq, hn⟩ := hloop.segmentRecords_eq (Nat.zero_le _)
    have hrecords : (runRecords params cfg i).1.filter (fun r => r.type == 0x02) =
        (List.range' 1 n).map segmentRecord := by
      rw [hrun]
      exact (segmentRecords_start_append cfg loop).trans heq
    rw [hrecords]
    dsimp only
    rw [List.length_map, List.length_range', List.range'_eq_map_range, List.map_map]
    refine ⟨List.map_congr_left fun j _ => ?_, by omega⟩
    rw [Function.comp_apply, Nat.add_comm]

/-- The addresses of a loop that ends well give the number of its segment records: each took 65535 off what the full
chunks added, and left an address of at least 1. -/
theorem LoopRecords.address_balance {ending : StreamEnd} {rest : List Byte} {cur seg : Nat} {records : List Record}
    (h : LoopRecords ending rest cur seg records .halted) (hcur : cur ≤ 65535) :
    ∃ last ≤ 65535, cur + 32 * (rest.length / 32) = 65535 * (segmentRecords records).length + last ∧
      (0 < (segmentRecords records).length → 1 ≤ last) := by
  generalize he : RunEnd.halted = e at h
  induction h with
  | failed | exhausted => cases he
  | ended => exact ⟨_, hcur, by simp, by simp⟩
  | endedPartial hlen => exact ⟨_, hcur, by simp; omega, by simp⟩
  | advanced hlen haddr _ ih =>
    obtain ⟨last, hlast, hbalance, hpos⟩ := ih haddr he
    exact ⟨last, hlast, by simp [hlen]; omega, hpos⟩
  | overflowed hlen haddr _ _ ih =>
    obtain ⟨last, hlast, hbalance, hpos⟩ := ih (by omega) he
    exact ⟨last, hlast, by simp [hlen]; omega, fun _ => by omega⟩

/-- Settles O59: from base 0 the address after the last overflow has the remainder of the number of segment records
modulo 32; below 33 of them it is therefore at least their number. -/
theorem segmentRecordsCountBoundaries : Obligations.SegmentRecordsCountBoundaries := by
  intro cfg i hbase hlen hgood
  obtain ⟨records, hloop, heq⟩ := runRecords_halted hgood
  obtain ⟨last, hlast, hbalance, hpos⟩ := hloop.address_balance (Nat.le_of_lt_succ cfg.initAddr.isLt)
  have hcount : (runRecords params cfg i).1.filter (fun r => r.type == 0x02) = segmentRecords records := by
    rw [heq]
    exact segmentRecords_start_append cfg records
  rw [hcount]
  generalize (segmentRecords records).length = n at hbalance hpos ⊢
  have hzero : cfg.initAddr.toNat = 0 := by rw [hbase]; rfl
  rw [hzero] at hbalance
  have hfew : n ≤ 32 := by omega
  have hle : n ≤ last := by omega
  omega

end Sys2Proof.Machine
end

section
/-! A run is `Encode` (R150): the steps of the sequencer follow the rules of `LoopRecords` one by one, each step with
the characters of its record, and are counted as they are taken (R146). -/

namespace Sys2Proof.Machine

variable {s : State}

/-! ### Points of a run -/

/-- A run at this value of `STATE` with these bytes not yet read, at this address and segment count; no command
waits. -/
structure RunPoint (s : State) (q : SeqState) (ending : StreamEnd) (rest : List Byte) (cur seg : Nat) : Prop where
  noCommand : s.cmds = []
  state : s.seqState = q
  noError : s.err = .none
  ending : s.inp.ending = ending
  cursor : s.inp.pos ≤ s.inp.data.length
  unread : s.inp.data.drop s.inp.pos = rest
  addr : s.curAddr.toNat = cur
  segments : s.segCnt.toNat = seg

/-- What these records append to `OUT` under the configuration of this state (R69). -/
def State.textOf (s : State) (records : List Record) : List Byte := records.flatMap (recordText s.cfg.eol)

/-- The next step emits these records, leaves `CFG`, and leads to a state with this property. -/
def State.Emits (s : State) (records : List Record) (P : State → Prop) : Prop :=
  ∃ t, step s = .next t ∧ t.cfg = s.cfg ∧ t.out = s.out ++ s.textOf records ∧ P t

/-- The steps from here emit these records in all and end like this. A good end takes `moves` steps and one more for
each segment record after the first `seg` ones. -/
def State.EndsAs (s : State) (moves seg : Nat) (records : List Record) : RunEnd → Prop
  | .halted => ∃ (n : Nat) (t : State), stepMany n s = .next t ∧ n + seg = moves + t.segCnt.toNat ∧
      t.seqState = .halted ∧ t.err = .none ∧ t.out = s.out ++ s.textOf records
  | .readFailure => ∃ (n : Nat) (t : State), stepMany n s = .next t ∧ t.seqState = .aborted ∧
      t.err = .readFailure ∧ t.out = s.out ++ s.textOf records
  | .unspecified => ∃ n : Nat, stepMany n s = .refused .segmentCounterExhausted
  | .inputUnavailable | .outOfFuel => False

theorem State.textOf_singleton (s : State) (r : Record) : s.textOf [r] = recordText s.cfg.eol r :=
  List.flatMap_singleton ..

theorem stepMany_succ {t : State} (h : step s = .next t) (n : Nat) : stepMany (n + 1) s = stepMany n t := by
  rw [stepMany, h]

/-- One step before the others. -/
theorem State.EndsAs.cons {moves moves' seg seg' : Nat} {records records' : List Record} {e : RunEnd}
    {P : State → Prop} (hs : s.Emits records P) (h : ∀ t, P t → t.EndsAs moves' seg' records' e)
    (hmoves : moves + seg' = moves' + seg + 1) : s.EndsAs moves seg (records ++ records') e := by
  obtain ⟨u, hstep, hcfg, hout, hu⟩ := hs
  have htext : u.out ++ u.textOf records' = s.out ++ s.textOf (records ++ records') := by
    rw [hout, List.append_assoc, State.textOf, State.textOf, State.textOf, hcfg, List.flatMap_append]
  have hends := h u hu
  cases e with
  | halted =>
    obtain ⟨n, t, hmany, hn, hq, herr, ht⟩ := hends
    exact ⟨n + 1, t, (stepMany_succ hstep n).trans hmany, by omega, hq, herr, ht.trans htext⟩
  | readFailure =>
    obtain ⟨n, t, hmany, hq, herr, ht⟩ := hends
    exact ⟨n + 1, t, (stepMany_succ hstep n).trans hmany, hq, herr, ht.trans htext⟩
  | unspecified =>
    obtain ⟨n, hmany⟩ := hends
    exact ⟨n + 1, (stepMany_succ hstep n).trans hmany⟩
  | inputUnavailable | outOfFuel => exact hends.elim

namespace RunPoint

variable {q : SeqState} {ending : StreamEnd} {chunk rest : List Byte} {cur seg : Nat}

/-- With no command waiting the enabled step is taken (R136). -/
theorem step_eq (h : RunPoint s q ending rest cur seg) {i : Instr} (hi : q.enabledStep = some i) :
    step s = exec i s.nextTurn :=
  step_enabled (h.state ▸ hi) (.inl h.noCommand)

/-- The number of bytes not yet read. -/
theorem length_unread (h : RunPoint s q ending rest cur seg) : s.inp.pos + rest.length = s.inp.data.length := by
  rw [← h.unread, List.length_drop]
  exact Nat.add_sub_cancel' h.cursor

/-- A read with a chunk left (R43). -/
theorem streamRead_full (h : RunPoint s q ending (chunk ++ rest) cur seg) (hlen : chunk.length = 32) :
    streamRead 32 s.inp = { buf := chunk, status := .full, rest := { s.inp with pos := s.inp.pos + 32 } } := by
  have hleft := h.length_unread
  rw [List.length_append] at hleft
  rw [Machine.streamRead_full (by omega), h.unread, List.take_left' hlen]

/-- A read with less than a chunk left of a stream that ends (R43). -/
theorem streamRead_short (h : RunPoint s q .eos rest cur seg) (hlen : rest.length < 32) :
    streamRead 32 s.inp =
      { buf := rest, status := .short, rest := { s.inp with pos := s.inp.data.length } } := by
  have hleft := h.length_unread
  rw [Machine.streamRead_short h.cursor (by omega) h.ending, h.unread]

/-- A read with less than a chunk left of a stream that fails (R43). -/
theorem streamRead_fail (h : RunPoint s q .fail rest cur seg) (hlen : rest.length < 32) :
    streamRead 32 s.inp = { buf := [], status := .fail, rest := { s.inp with pos := s.inp.data.length } } := by
  have hleft := h.length_unread
  exact Machine.streamRead_fail h.cursor (by omega) h.ending

/-! ### The steps from a point (R137 to R140) -/

/-- From `START` the Start-Address record if it is enabled (R137). -/
theorem emits_start (h : RunPoint s .start ending rest cur seg) :
    s.Emits (if s.cfg.startEn = 1 then [startRecord] else []) fun t => RunPoint t .streaming ending rest cur seg := by
  have hpoint : RunPoint { s.nextTurn with seqState := .streaming } .streaming ending rest cur seg :=
    { h with state := rfl }
  by_cases hen : s.cfg.startEn = 1
  · rw [if_pos hen]
    exact ⟨_, (h.step_eq rfl).trans (exec_startAddress_emits (s := s.nextTurn) h.state hen), rfl,
      by rw [s.textOf_singleton]; rfl, { hpoint with }⟩
  · rw [if_neg hen]
    have hzero : s.cfg.startEn = 0 := (BitVec.eq_zero_or_eq_one s.cfg.startEn).resolve_right hen
    exact ⟨_, (h.step_eq rfl).trans (exec_startAddress_silent (s := s.nextTurn) h.state hzero), rfl,
      (List.append_nil _).symm, hpoint⟩

/-- From `STREAMING` with a chunk left, its Data record (R138). -/
theorem emits_full (h : RunPoint s .streaming ending (chunk ++ rest) cur seg) (hlen : chunk.length = 32)
    (hcur : cur ≤ 65535) :
    s.Emits [dataRecord cur chunk] fun t =>
      RunPoint t (if cur + 32 > 65535 then .segOverflow else .streaming) ending rest (cur + 32) seg := by
  have hread : streamRead 32 s.nextTurn.inp = _ := h.streamRead_full hlen
  have hleft := h.length_unread
  rw [List.length_append] at hleft
  have hexec := exec_data_full (s := s.nextTurn) h.state (h.addr.trans_le hcur) (by rw [hread])
  have haddr : s.nextTurn.curAddr.toNat = cur := h.addr
  rw [hread, State.emitData_eq, haddr] at hexec
  exact ⟨_, (h.step_eq rfl).trans hexec, rfl, by rw [s.textOf_singleton]; rfl,
    { noCommand := h.noCommand
      state := rfl
      noError := h.noError
      ending := h.ending
      cursor := by change s.inp.pos + 32 ≤ s.inp.data.length; omega
      unread := by
        change s.inp.data.drop (s.inp.pos + 32) = rest
        rw [← List.drop_drop, h.unread, List.drop_left' hlen]
      addr := Nat.mod_eq_of_lt (by omega)
      segments := h.segments }⟩

/-- From `STREAMING` at the end of the data, nothing (R138). -/
theorem emits_nothing (h : RunPoint s .streaming .eos [] cur seg) :
    s.Emits [] fun t => RunPoint t .done .eos [] cur seg := by
  have hread : streamRead 32 s.nextTurn.inp = _ := h.streamRead_short (by decide)
  have hexec := exec_data_empty (s := s.nextTurn) h.state (by rw [hread]) (by rw [hread])
  rw [hread] at hexec
  exact ⟨_, (h.step_eq rfl).trans hexec, rfl, (List.append_nil _).symm,
    { h with state := rfl, cursor := le_rfl, unread := List.drop_length }⟩

/-- From `STREAMING` with less than a chunk left, its Data record (R138). -/
theorem emits_partial (h : RunPoint s .streaming .eos rest cur seg) (hlen : rest.length < 32) (hne : rest ≠ []) :
    s.Emits [dataRecord cur rest] fun t => RunPoint t .done .eos [] cur seg := by
  have hread : streamRead 32 s.nextTurn.inp = _ := h.streamRead_short hlen
  have hexec := exec_data_partial (s := s.nextTurn) h.state (by rw [hread]) (by rw [hread]; exact hne)
  have haddr : s.nextTurn.curAddr.toNat = cur := h.addr
  rw [hread, State.emitData_eq, haddr] at hexec
  exact ⟨_, (h.step_eq rfl).trans hexec, rfl, by rw [s.textOf_singleton]; rfl,
    { h with state := rfl, cursor := le_rfl, unread := List.drop_length }⟩

/-- From `SEG_OVERFLOW` below the last count, the segment record (R139). -/
theorem emits_segment (h : RunPoint s .segOverflow ending rest cur seg) (hcur : 65535 ≤ cur) (hseg : seg ≠ 0xFFFF) :
    s.Emits [segmentRecord (seg + 1)] fun t =>
      RunPoint t .streaming ending rest (cur - 65535) (seg + 1) := by
  have hn : s.segCnt ≠ 0xFFFF := by
    intro heq
    exact hseg (by rw [← h.segments, heq]; rfl)
  have hcount : BitVec.ofNat 16 (seg + 1) = s.segCnt + 1 := by
    rw [← h.segments, ← segCnt_succ_toNat hn, BitVec.ofNat_toNat, BitVec.setWidth_eq]
  have hle : (65535 : BitVec 17) ≤ s.curAddr := BitVec.le_def.2 (hcur.trans_eq h.addr.symm)
  exact ⟨_, (h.step_eq rfl).trans (exec_extendedSegmentAddress_enabled (s := s.nextTurn) h.state hn), rfl,
    by rw [s.textOf_singleton, recordText, segmentRecord, hcount]; rfl,
    { h with
      state := rfl
      addr := (BitVec.toNat_sub_of_le hle).trans (by rw [h.addr]; rfl)
      segments := (segCnt_succ_toNat hn).trans (by rw [h.segments]) }⟩

/-- From `DONE` the End-Of-File record and a good end (R140). -/
theorem endsAs_done (h : RunPoint s .done ending rest cur seg) :
    s.EndsAs 1 seg [eofRecord] .halted := by
  have hstep := (h.step_eq rfl).trans (exec_endOfFile_enabled (s := s.nextTurn) h.state)
  refine ⟨1, _, stepMany_succ hstep 0, congrArg (1 + ·) h.segments.symm, rfl, h.noError, ?_⟩
  rw [s.textOf_singleton, fixedRecordTexts.1]
  rfl

/-- From `STREAMING` with less than a chunk left of a stream that fails, `ReadFailure` (R138, R163). -/
theorem endsAs_failed (h : RunPoint s .streaming .fail rest cur seg) (hlen : rest.length < 32) (moves : Nat) :
    s.EndsAs moves seg [] .readFailure := by
  have hread : streamRead 32 s.nextTurn.inp = _ := h.streamRead_fail hlen
  have hstep := (h.step_eq rfl).trans (exec_data_fail (s := s.nextTurn) h.state (by rw [hread]))
  exact ⟨1, _, stepMany_succ hstep 0, rfl, rfl, (List.append_nil _).symm⟩

/-- From `SEG_OVERFLOW` at the last count, the step without meaning (R139, U1). -/
theorem endsAs_exhausted (h : RunPoint s .segOverflow ending rest cur 0xFFFF) (moves : Nat) (records : List Record) :
    s.EndsAs moves 0xFFFF records .unspecified := by
  have hn : s.segCnt = 0xFFFF := BitVec.eq_of_toNat_eq h.segments
  have hstep := (h.step_eq rfl).trans (exec_extendedSegmentAddress_exhausted (s := s.nextTurn) h.state hn)
  exact ⟨1, by rw [stepMany, hstep]⟩

/-- The steps from `STREAMING` follow the loop of R150: a read for each chunk and one at the end, the steps of
`SEG_OVERFLOW`, and `DONE` (R146). -/
theorem endsAs_loop (h : RunPoint s .streaming ending rest cur seg) (hcur : cur ≤ 65535) {records : List Record}
    {e : RunEnd} (hloop : LoopRecords ending rest cur seg records e) :
    s.EndsAs (rest.length / 32 + 2) seg records e := by
  induction hloop generalizing s with
  | failed hlen hend =>
    subst hend
    exact h.endsAs_failed hlen _
  | ended hend =>
    subst hend
    exact .cons (records := []) h.emits_nothing (fun t ht => ht.endsAs_done) (by simp; omega)
  | @endedPartial rest cur _ hlen hne hend =>
    subst hend
    exact .cons (records := [dataRecord cur rest]) (h.emits_partial hlen hne) (fun t ht => ht.endsAs_done)
      (by rw [Nat.div_eq_of_lt hlen]; omega)
  | @advanced chunk _ cur _ _ _ hlen haddr _ ih =>
    have hemits := h.emits_full hlen hcur
    rw [if_neg (not_lt.2 haddr)] at hemits
    exact .cons (records := [dataRecord cur chunk]) hemits (fun t ht => ih ht haddr)
      (by rw [List.length_append, hlen]; omega)
  | @overflowed chunk rest cur seg _ _ hlen haddr hseg _ ih =>
    have hemits := h.emits_full hlen hcur
    rw [if_pos haddr] at hemits
    have hsegment (t : State) (ht : RunPoint t .segOverflow ending rest (cur + 32) seg) :=
      State.EndsAs.cons (moves := rest.length / 32 + 2) (seg := seg) (ht.emits_segment haddr.le hseg)
        (fun u hu => ih hu (by omega)) (by omega)
    exact .cons (records := [dataRecord cur chunk]) hemits hsegment (by rw [List.length_append, hlen]; omega)
  | @exhausted chunk rest cur _ hlen haddr hseg =>
    subst hseg
    have hemits := h.emits_full hlen hcur
    rw [if_pos haddr] at hemits
    exact .cons (records := [dataRecord cur chunk]) hemits
      (fun t ht => ht.endsAs_exhausted (rest.length / 32 + 2) []) (by rw [List.length_append, hlen]; omega)

end RunPoint

/-- The word of `SEQ.RUN` binds the stream offered and starts the run or ends it at once (R135). -/
theorem step_seqRun {i : Input} {others : List Input} (hb : s.seqBusy = false) (hp : s.phase = .idle)
    (hc : s.cmds = [0x900000000]) (hs : s.streams = i :: others) :
    step s = .next { s.dropCommand.nextTurn with
      inp := { i with pos := 0 }, streams := others
      curAddr := s.cfg.initAddr.setWidth 17, segCnt := 0
      err := if i.avail then .none else .inputUnavailable
      seqState := if i.avail then .start else .aborted
      rsps := s.rsps ++ [0x000] } :=
  (step_command hc (.inl hb) (decodeInvertsEncode .seqRun)).trans
    (exec_seqRun_accepted (s := s.dropCommand.nextTurn) hb hp hs)

/-- The word of `SEQ.RUN` with a stream that is available starts a run at the beginning of its data (R135). -/
theorem emits_seqRun {i : Input} {others : List Input} (hb : s.seqBusy = false) (hp : s.phase = .idle)
    (hc : s.cmds = [0x900000000]) (hs : s.streams = i :: others) (havail : i.avail = true) :
    s.Emits [] fun t => t.cfg = s.cfg ∧ RunPoint t .start i.ending i.data s.cfg.initAddr.toNat 0 := by
  have hstep := step_seqRun hb hp hc hs
  rw [if_pos havail, if_pos havail] at hstep
  exact ⟨_, hstep, rfl, (List.append_nil _).symm, rfl,
    { noCommand := by simp [hc]
      state := rfl
      noError := rfl
      ending := rfl
      cursor := Nat.zero_le _
      unread := rfl
      addr := BitVec.toNat_setWidth_of_le (by decide)
      segments := rfl }⟩

/-- Settles O54: an unavailable input ends the run in its first action; with an available one the run is at its start,
and from there follows the loop. -/
theorem runIsEncode : Obligations.RunIsEncode := by
  intro s i others hb hp hc hs
  obtain ⟨havail, hrun⟩ | ⟨records, e, havail, hloop, hrun⟩ := runRecords_cases s.cfg i
  · rw [encodeRun, hrun]
    exact ⟨_, stepMany_succ (step_seqRun hb hp hc hs) 0, by simp [havail], by simp [havail], rfl⟩
  · have hcur : s.cfg.initAddr.toNat ≤ 65535 := Nat.le_of_lt_succ s.cfg.initAddr.isLt
    have hstarted (t : State) (ht : t.cfg = s.cfg ∧ RunPoint t .start i.ending i.data s.cfg.initAddr.toNat 0) :
        t.EndsAs (i.data.length / 32 + 3) 0 ((if s.cfg.startEn = 1 then [startRecord] else []) ++ records) e := by
      obtain ⟨hcfg, ht⟩ := ht
      rw [← hcfg]
      exact .cons ht.emits_start (fun u hu => hu.endsAs_loop hcur hloop) rfl
    have hends : s.EndsAs (i.data.length / 32 + 4) 0
        ((if s.cfg.startEn = 1 then [startRecord] else []) ++ records) e :=
      .cons (records := []) (emits_seqRun hb hp hc hs havail) hstarted rfl
    rw [encodeRun, hrun]
    cases e with
    | halted =>
      obtain ⟨n, t, hmany, hn, hend⟩ := hends
      exact ⟨t, by rw [← hn]; exact hmany, hend⟩
    | readFailure | unspecified => exact hends
    | inputUnavailable | outOfFuel => exact hends.elim

end Sys2Proof.Machine
end

section
/-! Exceptions (60_exceptions): which actions enter `ABORTED` (R160 to R163, R170), the word that decoding refuses
(R81, R164, R165), and the admission table (R166, R168). -/

namespace Sys2Proof.Machine

variable {s t : State}

/-! ### How `ABORTED` is entered (R160 to R163, R170) -/

/-- An instruction that leads to `ABORTED` is a `SEQ.RUN` that finds its input unavailable, or the step `STREAMING` with
a failed read. -/
theorem exec_aborts {i : Instr} (hx : exec i s = .next t) (hs : s.seqState ≠ .aborted) (ht : t.seqState = .aborted) :
    (s.seqBusy = false ∧ s.nextInput.avail = false ∧ t = s.startRun.respond .ok 0x00) ∨
      (s.seqState = .streaming ∧ (streamRead 32 s.inp).status = .fail ∧
        t = (s.setInp (streamRead 32 s.inp).rest).raiseError .readFailure) := by
  cases i with
  | csumClr | csumAdd | csumRd | fmtHdr | fmtDat | fmtEof | seqCfg | statRd =>
    have hheld := exec_seqState_held hx (by simp [writtenRegisters])
    exact absurd (hheld.symm.trans ht) hs
  | reset =>
    cases hx
    cases ht
  | seqRun =>
    obtain ⟨code, rfl⟩ | ⟨hb, -, rfl⟩ := State.ifAdmitted_cases hx
    · exact absurd ht hs
    · refine .inl ⟨hb, Bool.eq_false_iff.2 fun havail => ?_, rfl⟩
      simp [State.startRun_eq, havail] at ht
  | data =>
    obtain ⟨hq, heq⟩ := State.ifEnabled_cases hx
    cases heq
    obtain ⟨hfail, heq⟩ | ⟨-, -, heq⟩ | ⟨-, -, heq⟩ | ⟨-, heq⟩ := s.streamingStep_cases params
    · exact .inr ⟨hq, hfail, heq⟩
    · simp [heq] at ht
    · simp [heq] at ht
    · rw [heq, State.advance_eq] at ht
      dsimp only at ht
      split at ht <;> cases ht
  | extendedSegmentAddress =>
    obtain ⟨-, -, rfl⟩ := execExtendedSegmentAddress_cases hx
    cases ht
  | endOfFile | startAddress =>
    obtain ⟨-, heq⟩ := State.ifEnabled_cases hx
    cases heq
    cases ht

/-- A step that changes `STATE` executes an instruction, from the state but for what fetching takes: the host's queue,
the turn and the tick. -/
theorem exec_of_step_seqState_ne (hx : step s = .next t) (hne : t.seqState ≠ s.seqState) :
    ∃ (i : Instr) (cmds : List CommandWord) (turn : Agent) (ticks : Nat),
      exec i { s with cmds := cmds, turn := turn, ticks := ticks } = .next t := by
  obtain ⟨-, -, rfl⟩ | ⟨cw, rest, -, -, ⟨i, -, hexec⟩ | ⟨code, -, rfl⟩⟩ | ⟨i, -, -, hexec⟩ := step_cases hx
  · exact absurd rfl hne
  · exact ⟨i, _, _, _, hexec⟩
  · exact absurd rfl hne
  · exact ⟨i, _, _, _, hexec⟩

/-- Settles O51: the step executes an instruction that aborts, and neither of the two kinds emits anything. -/
theorem onlyInputErrorsAbort : Obligations.OnlyInputErrorsAbort := by
  intro s t hx hs ht
  have hne : t.seqState ≠ s.seqState := ht ▸ hs.symm
  obtain ⟨i, cmds, turn, ticks, hexec⟩ := exec_of_step_seqState_ne hx hne
  obtain ⟨hb, havail, rfl⟩ | ⟨hq, hfail, rfl⟩ := exec_aborts hexec hs ht
  · rw [State.startRun_eq, havail]
    exact ⟨rfl, .inl ⟨hb, havail, rfl⟩⟩
  · exact ⟨rfl, .inr ⟨hq, hfail, rfl, rfl, rfl, rfl⟩⟩

/-- The input when the environment offers no stream (R161). -/
theorem State.nextInput_nil (h : s.streams = []) : s.nextInput = Input.unavailable := by
  rw [State.nextInput, h]

/-- Settles O34: an absent stream is an unavailable one. -/
theorem noStreamOfferedIsUnavailable : Obligations.NoStreamOfferedIsUnavailable := by
  intro s hb hp hs
  refine (State.ifAdmitted_accepted hb hp).trans ?_
  rw [State.startRun_eq, State.nextInput_nil hs, hs]
  rfl

/-! ### A word refused by decoding (R81, R164, R165) -/

/-- The last test of R82 refuses with `RSV_BITS` only. -/
theorem checkReserved_error {fmt : ArgFormat} {arg : BitVec 32} {i : Instr} {code : RspCode}
    (h : checkReserved fmt arg i = .error code) : code = .rsvBits := by
  unfold checkReserved at h
  split at h <;> cases h
  rfl

/-- Decoding refuses a command word with one of two codes (R81, R82). -/
theorem decodeCommand_error {cw : CommandWord} {code : RspCode} (h : decodeCommand cw = .error code) :
    code = .illOp ∨ code = .rsvBits := by
  unfold decodeCommand at h
  dsimp only at h
  split at h
  case h_11 =>
    cases h
    exact .inl rfl
  all_goals exact .inr (checkReserved_error h) -- the ten assigned operation codes

/-- A refused word is answered when the host moves. -/
theorem step_reject {cw : CommandWord} {rest : List CommandWord} {code : RspCode} (hc : s.cmds = cw :: rest)
    (hw : s.seqBusy = false ∨ s.turn = .host) (hd : decodeCommand cw = .error code) :
    step s = .next (s.dropCommand.nextTurn.refuse code) := by
  rw [step, State.fetch_command hc hw, commandAction, hd]

/-- Settles O9: the word is taken off the queue and answered with one of the two codes of decoding. -/
theorem rejectedWordOnlyAnswers : Obligations.RejectedWordOnlyAnswers := by
  intro s cw rest code hc hw hd
  rw [step_reject hc hw hd, State.nextTurn, State.dropCommand, hc]
  obtain rfl | rfl := decodeCommand_error hd <;> rfl

/-! ### The admission table (R166, R168) -/

/-- The instruction has a next state from `s`, with the response `OK` (R80). -/
def AnswersOk (i : Instr) (s : State) : Prop :=
  ∃ (t : State) (d : Byte), exec i s = .next t ∧ t.rsps = s.rsps ++ [responseWord .ok d]

theorem AnswersOk.of_respond {i : Instr} {u : State} {d : Byte} (h : exec i s = .next (u.respond .ok d))
    (hu : u.rsps = s.rsps) : AnswersOk i s :=
  ⟨_, d, h, by rw [State.respond_rsps, hu]⟩

/-- A command that needs a phase is refused outside it and during a run. -/
theorem refusedOutside_of_neededPhase {i : Instr} {need : Phase} (h : neededPhase i = some need) :
    RefusedOutside need i := by
  cases i with
  | csumClr | csumAdd | csumRd | fmtHdr | fmtDat | fmtEof | seqCfg | seqRun =>
    cases h
    exact refusedOutside_of_ifAdmitted fun _ => rfl
  | statRd | reset | data | endOfFile | extendedSegmentAddress | startAddress => cases h

/-- A header is well-formed when its type is one of the four of R70. -/
theorem wellFormed_fmtHdr_iff {count : Byte} {addr : BitVec 16} {type : Byte} :
    (Instr.fmtHdr count addr type).wellFormed = true ↔ type ∈ recordTypes :=
  typeAccepted_iff

/-- Past the tests of the state, what is refused is a header with a reserved type (R112, R168). -/
theorem exec_illFormed {i : Instr} {need : Phase} (hi : neededPhase i = some need) (hb : s.seqBusy = false)
    (hp : s.phase = need) (hwf : i.wellFormed = false) : exec i s = .next (s.answered 0x400) := by
  cases i with
  | fmtHdr count addr type =>
    cases hi
    exact exec_fmtHdr_reserved hb hp (mt wellFormed_fmtHdr_iff.2 (Bool.eq_false_iff.1 hwf))
  | csumClr | csumAdd | csumRd | fmtDat | fmtEof | seqCfg | seqRun | statRd | reset | data | endOfFile
  | extendedSegmentAddress | startAddress => cases hwf

/-- A well-formed command in its phase, with no run in progress, is accepted (R166). -/
theorem answersOk_of_neededPhase {i : Instr} {need : Phase} (hi : neededPhase i = some need) (hb : s.seqBusy = false)
    (hp : s.phase = need) (hwf : i.wellFormed = true) : AnswersOk i s := by
  cases i with
  | csumClr | csumAdd | csumRd | fmtEof | seqCfg =>
    cases hi
    exact .of_respond (State.ifAdmitted_accepted hb hp) rfl
  | fmtHdr count addr type =>
    cases hi
    exact .of_respond (exec_fmtHdr_accepted hb hp (wellFormed_fmtHdr_iff.1 hwf))
      (congrArg Environment.rsps (State.openRecord_environment count addr type))
  | fmtDat b =>
    cases hi
    exact .of_respond (exec_fmtDat_accepted b hb hp) (congrArg Environment.rsps (State.takeDataByte_environment b))
  | seqRun =>
    cases hi
    exact .of_respond (State.ifAdmitted_accepted hb hp) (congrArg Environment.rsps State.startRun_environment)
  | statRd | reset | data | endOfFile | extendedSegmentAddress | startAddress => cases hi

/-- Settles O37: the rows of the table in the order of its tests. -/
theorem admissionTable : Obligations.AdmissionTable := by
  intro i s need hi
  obtain ⟨hbusy, hphase⟩ := refusedOutside_of_neededPhase hi s
  exact ⟨hbusy, hphase, exec_illFormed hi, answersOk_of_neededPhase hi⟩

/-- Every command but `STAT.RD` and `RESET` needs a phase (R166). -/
theorem neededPhase_eq_none_iff {i : Instr} (hi : isCommand i = true) :
    neededPhase i = none ↔ i = .statRd ∨ i = .reset := by
  cases i with
  | csumClr | csumAdd | csumRd | fmtHdr | fmtDat | fmtEof | seqCfg | seqRun | statRd | reset => simp [neededPhase]
  | data | endOfFile | extendedSegmentAddress | startAddress => cases hi

/-- Settles O38: neither of the two commands is tested for admission. -/
theorem statusAndResetAlwaysAccepted : Obligations.StatusAndResetAlwaysAccepted := by
  intro i s hi
  refine ⟨neededPhase_eq_none_iff hi, fun hnone => ?_⟩
  obtain rfl | rfl := (neededPhase_eq_none_iff hi).1 hnone
  · exact AnswersOk.of_respond (u := s) rfl rfl
  · exact AnswersOk.of_respond (u := s.resetRegisters) rfl rfl

end Sys2Proof.Machine
end

section
/-! The number of characters a good run appends (R197): a record is its line of R62 and a terminator, so the text of
any records is given by their number and by the number of their data bytes; the loop gives both. -/

namespace Sys2Proof.Machine

/-! ### The text of some records (R62, R69) -/

/-- The length of the terminator by `CFG.EOL` = 1, which selects CR LF (R68). -/
theorem eol_length_eq (e : BitVec 1) : (eol e).length = if e = 1 then 2 else 1 := by
  obtain rfl | rfl := BitVec.eq_zero_or_eq_one e <;> rfl

@[simp] theorem recordText_length (e : BitVec 1) (r : Record) :
    (recordText e r).length = 11 + (eol e).length + 2 * r.data.length := by
  rw [recordText, formatRecord, List.length_append, line_length]
  omega

/-- The text of records has 11 characters and a terminator for each of them, and two for each byte of data. -/
theorem length_flatMap_recordText (e : BitVec 1) (records : List Record) :
    (records.flatMap (recordText e)).length =
      (11 + (eol e).length) * records.length + 2 * (records.flatMap Record.data).length := by
  induction records with
  | nil => rfl
  | cons r records ih =>
    rw [List.flatMap_cons, List.flatMap_cons, List.length_append, List.length_append, List.length_cons, ih,
      recordText_length]
    ring

/-! ### The number of records and of data bytes of a good run (R142, R143) -/

@[simp] theorem segmentRecord_data_length (n : Nat) : (segmentRecord n).data.length = 2 := rfl

@[simp] theorem eofRecord_data : eofRecord.data = [] := rfl

/-- The loop that ends well emits a record for each chunk, the segment records and the End-Of-File record. -/
theorem LoopRecords.length_eq {ending : StreamEnd} {rest : List Byte} {cur seg : Nat} {records : List Record}
    (h : LoopRecords ending rest cur seg records .halted) :
    records.length = (rest.length + 31) / 32 + (segmentRecords records).length + 1 := by
  generalize he : RunEnd.halted = e at h
  induction h with
  | failed | exhausted => cases he
  | ended => rfl
  | endedPartial hlen hne =>
    have hpos := List.length_pos_iff.2 hne
    simp only [List.length_cons, List.length_nil, segmentRecords_cons_data, segmentRecords_cons_eof,
      segmentRecords_nil]
    omega
  | advanced hlen _ _ ih | overflowed hlen _ _ _ ih =>
    have hrest := ih he
    simp only [List.length_cons, List.length_append, hlen, segmentRecords_cons_data, segmentRecords_cons_segment]
    omega

/-- The records of the loop that ends well carry all its bytes, and two bytes in each segment record. -/
theorem LoopRecords.length_data_eq {ending : StreamEnd} {rest : List Byte} {cur seg : Nat} {records : List Record}
    (h : LoopRecords ending rest cur seg records .halted) :
    (records.flatMap Record.data).length = rest.length + 2 * (segmentRecords records).length := by
  generalize he : RunEnd.halted = e at h
  induction h with
  | failed | exhausted => cases he
  | ended => rfl
  | endedPartial => simp
  | advanced _ _ _ ih | overflowed _ _ _ _ ih =>
    have hrest := ih he
    simp only [List.flatMap_cons, List.length_append, dataRecord_data, segmentRecord_data_length,
      segmentRecords_cons_data, segmentRecords_cons_segment, List.length_cons]
    omega

/-- The Start-Address record is one record, if enabled. -/
theorem length_startRecords (cfg : Cfg) :
    (if cfg.startEn = 1 then [startRecord] else []).length = if cfg.startEn = 1 then 1 else 0 :=
  apply_ite List.length _ _ _

/-- The Start-Address record has two bytes of data, as each segment record has. -/
theorem length_data_startRecords (cfg : Cfg) :
    ((if cfg.startEn = 1 then [startRecord] else []).flatMap Record.data).length =
      2 * if cfg.startEn = 1 then 1 else 0 := by
  split_ifs <;> rfl

/-- Settles O60: the text of the Start-Address record, if enabled, and of the loop's records, by their numbers. -/
theorem outputVolumeOfGoodRun : Obligations.OutputVolumeOfGoodRun := by
  intro cfg i hgood n s start terminator
  obtain ⟨records, hloop, heq⟩ := runRecords_halted hgood
  have hs : (segmentRecords records).length = s := by
    rw [← segmentRecords_start_append cfg, ← heq]
    rfl
  calc (encodeRun params cfg i).1.length
      = (11 + terminator) * (start + records.length) + 2 * (2 * start + (records.flatMap Record.data).length) := by
        rw [encodeRun, heq, length_flatMap_recordText, eol_length_eq, List.flatMap_append, List.length_append,
          List.length_append, length_startRecords, length_data_startRecords]
    _ = (11 + terminator) * (start + ((n + 31) / 32 + s + 1)) + 2 * (2 * start + (n + 2 * s)) := by
        rw [hloop.length_eq, hloop.length_data_eq, hs]
    _ = _ := by ring

end Sys2Proof.Machine
end
